-- ==== Sys2Proof/Word.lean ====
section
/-! DEFINITION. The two bit-vector types of the engine: a byte of a frame and a 16-bit parameter pattern
(`00_scope.md` R9). -/

namespace Sys2Proof

/-- A byte of a frame, of the transmit stream or of the receive stream (R9: "Bytes are 8 bits"). -/
abbrev Byte := BitVec 8

/-- A parameter as a 16-bit pattern, with no sign of its own (R97). -/
abbrev Word := BitVec 16

end Sys2Proof
end

