-- ==== Sys2Proof/Config.lean ====
section
/-! DEFINITION. What an implementation of the engine fixes: the constants of `00_scope.md` R5, the record of its
OPEN timing parameters with their constraints (R5, R8), and the free values: constants without a body, which stand
for everything the spec leaves to the outside world or calls "no value". -/

namespace Sys2Proof

namespace Config

/-- `HEADER` (R5, R94): both header bytes. -/
def header : Byte := 0x55

/-- `ID_MAX_UNICAST` (R5, R61). -/
def idMaxUnicast : Byte := 253

/-- `ID_BROADCAST` (R5, R61). -/
def idBroadcast : Byte := 254

/-- The one 8-bit ID outside the document's range (R62). -/
def idInvalid : Byte := 255

/-- `MIN_FRAME` (R5). -/
def minFrame : Nat := 6

/-- `MAX_FRAME` (R5). -/
def maxFrame : Nat := 10

/-- `N_SERVO` (R5): actuators on the SpiderPi bus. -/
def nServo : Nat := 18

end Config

/-- The timing parameters of R5, in ticks, with `CORRUPT_RETRY`, and the three worst-case durations that R8 adds up:
of `write` for a frame of six bytes, of `wait(T_SETTLE)` and of `wait(T_POLL)`. `ticksPerMs` says how long a tick is
(`TICK`): the number of ticks in a millisecond, which R5 needs for "`T_SETTLE < 1 ms`". -/
structure Timing where
  tSettle      : Nat
  tPoll        : Nat
  nPoll        : Nat
  tBudget      : Nat
  writeMax     : Nat
  settleMax    : Nat
  pollMax      : Nat
  ticksPerMs   : Nat
  corruptRetry : Bool
  deriving DecidableEq, Repr

/-- The worst-case duration of one attempt in which the channel stays silent (R8). -/
def Timing.worstSilentAttempt (T : Timing) : Nat := T.writeMax + T.settleMax + T.nPoll * T.pollMax

/-- The constraints R5 and R8 put on the parameters: `T_SETTLE` is no zero and below a millisecond, there is a poll, a
`wait` takes at least what it is asked for (R10), and the worst silent attempt is shorter than the budget (R8). -/
def Timing.ok (T : Timing) : Bool :=
  decide (1 ≤ T.tSettle) && decide (T.tSettle < T.ticksPerMs) && decide (1 ≤ T.nPoll) &&
    decide (T.tSettle ≤ T.settleMax) && decide (T.tPoll ≤ T.pollMax) && decide (T.worstSilentAttempt < T.tBudget)

/-- What one call of `write` answers (R10): whether it succeeded, how many ticks it took, and, when it failed, how
many bytes of the frame reached the wire (U4: any number of them). -/
structure WriteAnswer where
  ok   : Bool
  dur  : Nat
  sent : Nat
  deriving DecidableEq, Repr, Inhabited

namespace Config

/-- FREE VALUE. The OPEN parameters of R5 and the worst-case durations of R8 (log 3). -/
opaque openParam : Nat → Nat

/-- FREE VALUE. The answer of the `n`-th `write`, where the state does not say it (U4, U9, U10; log 4). -/
opaque freeWrite : Nat → WriteAnswer

/-- FREE VALUE. By how much the `n`-th `wait` is longer than asked, where the state does not say it (U10; log 4). -/
opaque freeWaitExcess : Nat → Nat

/-- FREE VALUE. How much time passes, outside `write` and `wait`, before the `n`-th `now()`, where the state does not
say it (R10, R12; log 10). -/
opaque freeLapse : Nat → Nat

/-- FREE VALUE. The bytes that reach the UART before the `n`-th poll, where the state does not say them (U8; log 4). -/
opaque freeArrival : Nat → List Byte

/-- FREE VALUE. What the UART's receive store holds after reset (U17, log 7). -/
opaque freeStore : List Byte

/-- FREE VALUE. What the clock says after reset: R10 gives a natural number that never decreases, and no start (log
7). -/
opaque freeClock : Nat

/-- FREE VALUE. The content of a register of `w` bits that the spec says holds "no value" (R20, R29; log 5). -/
opaque freeBits (w : Nat) : Nat → BitVec w

/-- The parameters of the machine at hand. They are free but for the constraints of R5 and R8: every choice that
`Timing.ok` admits is one choice of `openParam`. `CORRUPT_RETRY` is `true` (R5, R159). -/
def timing : Timing where
  tSettle      := openParam 0 + 1
  tPoll        := openParam 1
  nPoll        := openParam 2 + 1
  tBudget      := openParam 5 + (openParam 0 + 1 + openParam 3) +
                    (openParam 2 + 1) * (openParam 1 + openParam 4) + openParam 6 + 1
  writeMax     := openParam 5
  settleMax    := openParam 0 + 1 + openParam 3
  pollMax      := openParam 1 + openParam 4
  ticksPerMs   := openParam 0 + 1 + openParam 7 + 1
  corruptRetry := true

end Config

end Sys2Proof
end

