-- ==== Sys2Proof/Syntax.lean ====
section
/-! DEFINITION. The commands of the engine and the instructions of the model. An instruction is a row of
`spec/opcode_table.json`: the 26 request rows are commands the host presents on the command port
(`30_encoding.md` R100, R110), the 13 reply rows are frames a device transmits in answer to a read command
(R99, `43_read_commands.md` R210). -/

namespace Sys2Proof

/-- The kind of a command (R101). -/
inductive Kind where
  | write
  | read
  deriving DecidableEq, Repr

/-- The command catalog (R100): the 26 command codes, by name. -/
inductive Cmd where
  | moveWrite
  | moveRead
  | moveStageWrite
  | moveStageRead
  | trigger
  | stop
  | offsetAdjust
  | offsetCommit
  | offsetRead
  | rotationLimitWrite
  | rotationLimitRead
  | voltageLimitWrite
  | voltageLimitRead
  | tempLimitWrite
  | tempLimitRead
  | tempRead
  | voltageRead
  | positionRead
  | motorModeWrite
  | motorModeRead
  | loadWrite
  | loadRead
  | ledModeWrite
  | ledModeRead
  | ledFaultWrite
  | ledFaultRead
  deriving DecidableEq, Repr

/-- The document's `params` list: none, one or two 16-bit patterns. A list of three or more cannot be presented
(R110). A parameter that is not there holds no value (R20, R134). -/
inductive Args where
  | zero
  | one (p0 : Word)
  | two (p0 p1 : Word)
  deriving DecidableEq, Repr

/-- The number of parameters, `NP` (R110). -/
def Args.np : Args → BitVec 2
  | .zero => 0
  | .one _ => 1
  | .two _ _ => 2

/-- The first parameter, if there is one. -/
def Args.first : Args → Option Word
  | .zero => none
  | .one p0 => some p0
  | .two p0 _ => some p0

/-- The second parameter, if there is one. -/
def Args.second : Args → Option Word
  | .zero => none
  | .one _ => none
  | .two _ p1 => some p1

/-- What the host puts on the command port (R110): an ID, a command code (any byte, also an invalid one) and the
parameters. -/
structure PortCmd where
  id   : Byte
  code : Byte
  args : Args
  deriving DecidableEq, Repr

/-- The instructions, one constructor per row of `spec/opcode_table.json`. A request row has the operands of the
command port (its `CHK` byte is computed by `ENCODE`, never presented: R110, R132); a reply row has every field of
the frame as received, `CHK` included (R107: "`ID`, the parameters and `CHK` are fields"). -/
inductive Instr where
  | moveWrite (id : Byte) (position durationMs : Word)
  | moveRead (id : Byte)
  | moveStageWrite (id : Byte) (position durationMs : Word)
  | moveStageRead (id : Byte)
  | trigger (id : Byte)
  | stop (id : Byte)
  | offsetAdjust (id : Byte) (offset : Word)
  | offsetCommit (id : Byte)
  | offsetRead (id : Byte)
  | rotationLimitWrite (id : Byte) (low high : Word)
  | rotationLimitRead (id : Byte)
  | voltageLimitWrite (id : Byte) (low high : Word)
  | voltageLimitRead (id : Byte)
  | tempLimitWrite (id : Byte) (limit : Word)
  | tempLimitRead (id : Byte)
  | tempRead (id : Byte)
  | voltageRead (id : Byte)
  | positionRead (id : Byte)
  | motorModeWrite (id : Byte) (mode speed : Word)
  | motorModeRead (id : Byte)
  | loadWrite (id : Byte) (load : Word)
  | loadRead (id : Byte)
  | ledModeWrite (id : Byte) (mode : Word)
  | ledModeRead (id : Byte)
  | ledFaultWrite (id : Byte) (mask : Word)
  | ledFaultRead (id : Byte)
  | moveReadReply (id : Byte) (position durationMs : Word) (chk : Byte)
  | moveStageReadReply (id : Byte) (position durationMs : Word) (chk : Byte)
  | offsetReadReply (id : Byte) (offset : Word) (chk : Byte)
  | rotationLimitReadReply (id : Byte) (low high : Word) (chk : Byte)
  | voltageLimitReadReply (id : Byte) (low high : Word) (chk : Byte)
  | tempLimitReadReply (id : Byte) (limit : Word) (chk : Byte)
  | tempReadReply (id : Byte) (temperature : Word) (chk : Byte)
  | voltageReadReply (id : Byte) (voltage : Word) (chk : Byte)
  | positionReadReply (id : Byte) (position : Word) (chk : Byte)
  | motorModeReadReply (id : Byte) (mode speed : Word) (chk : Byte)
  | loadReadReply (id : Byte) (load : Word) (chk : Byte)
  | ledModeReadReply (id : Byte) (mode : Word) (chk : Byte)
  | ledFaultReadReply (id : Byte) (mask : Word) (chk : Byte)
  deriving DecidableEq, Repr

end Sys2Proof
end

