-- ==== Sys2Proof/WellFormed.lean ====
section
/-! DEFINITION. Which instructions are legal as the document states them: the ID range of `20_memory.md` R61, the
operand ranges of `00_scope.md` R6, and the checksum of a reply (`30_encoding.md` R95). The machine runs the others
too: it answers them with the error of their rule. This file is written apart from the machine's own checks. -/

namespace Sys2Proof

/-- What is wrong with an instruction. -/
inductive IllFormed where
  /-- ID 255 in a command (R61, R62) -/
  | idInvalid
  /-- a position above 1000 (R6) -/
  | position
  /-- a duration above 30000 ms (R6) -/
  | duration
  /-- an offset outside -125 to 125 (R6) -/
  | offset
  /-- rotation limits that are not `low < high` within 0 to 1000 (R6) -/
  | rotationLimits
  /-- voltage limits that are not `low < high` within 4500 to 12000 mV (R6) -/
  | voltageLimits
  /-- a temperature limit outside 50 to 100 °C (R6) -/
  | tempLimit
  /-- a load value that is no truth value (R192) -/
  | load
  /-- the `CHK` byte of a reply is not the complement of the sum of its other bytes (R95) -/
  | checksum
  deriving DecidableEq, Repr

/-- The first of some checks that fails. -/
def firstFailure : List (Bool × IllFormed) → Option IllFormed
  | [] => none
  | (ok, e) :: rest => if ok then firstFailure rest else some e

/-- The ID of a command is in 0 to 254 (R61). -/
def idCheck (id : Byte) : Bool × IllFormed := (decide (id.toNat ≤ 254), .idInvalid)

/-- A value lies in a range, both ends included. -/
def within (lo hi v : Nat) : Bool := decide (lo ≤ v) && decide (v ≤ hi)

/-- A pair of limits is ordered and lies in a range (R6). -/
def limitPair (lo hi : Nat) (low high : Word) : Bool :=
  within lo hi low.toNat && within lo hi high.toNat && decide (low.toNat < high.toNat)

/-- A 16-bit pattern read as a signed number lies in -125 to 125 (R6): its magnitude is in the low or the high end of
the unsigned range. -/
def offsetInRange (v : Word) : Bool := decide (v.toNat ≤ 125) || decide (65536 - 125 ≤ v.toNat)

/-- The checks of a move (R6). -/
def moveChecks (position durationMs : Word) : List (Bool × IllFormed) :=
  [(within 0 1000 position.toNat, .position), (within 0 30000 durationMs.toNat, .duration)]

/-- The low and the high byte of a parameter, as numbers. -/
def paramSum (v : Word) : Nat := v.toNat % 256 + v.toNat / 256

/-- The checksum of a reply with one parameter (R95): with `CHK` the sum is 255 modulo 256. -/
def chk1 (id : Byte) (code : Nat) (p0 : Word) (chk : Byte) : Bool × IllFormed :=
  (decide ((id.toNat + 5 + code + paramSum p0 + chk.toNat) % 256 = 255), .checksum)

/-- The checksum of a reply with two parameters (R95). -/
def chk2 (id : Byte) (code : Nat) (p0 p1 : Word) (chk : Byte) : Bool × IllFormed :=
  (decide ((id.toNat + 7 + code + paramSum p0 + paramSum p1 + chk.toNat) % 256 = 255), .checksum)

/-- What is wrong with an instruction, if anything is. -/
def Instr.illFormed : Instr → Option IllFormed
  | .moveWrite id position durationMs => firstFailure (idCheck id :: moveChecks position durationMs)
  | .moveRead id => firstFailure [idCheck id]
  | .moveStageWrite id position durationMs => firstFailure (idCheck id :: moveChecks position durationMs)
  | .moveStageRead id => firstFailure [idCheck id]
  | .trigger id => firstFailure [idCheck id]
  | .stop id => firstFailure [idCheck id]
  | .offsetAdjust id offset => firstFailure (idCheck id :: [(offsetInRange offset, .offset)])
  | .offsetCommit id => firstFailure [idCheck id]
  | .offsetRead id => firstFailure [idCheck id]
  | .rotationLimitWrite id low high => firstFailure (idCheck id :: [(limitPair 0 1000 low high, .rotationLimits)])
  | .rotationLimitRead id => firstFailure [idCheck id]
  | .voltageLimitWrite id low high => firstFailure (idCheck id :: [(limitPair 4500 12000 low high, .voltageLimits)])
  | .voltageLimitRead id => firstFailure [idCheck id]
  | .tempLimitWrite id limit => firstFailure (idCheck id :: [(within 50 100 limit.toNat, .tempLimit)])
  | .tempLimitRead id => firstFailure [idCheck id]
  | .tempRead id => firstFailure [idCheck id]
  | .voltageRead id => firstFailure [idCheck id]
  | .positionRead id => firstFailure [idCheck id]
  | .motorModeWrite id _ _ => firstFailure [idCheck id]
  | .motorModeRead id => firstFailure [idCheck id]
  | .loadWrite id load => firstFailure (idCheck id :: [(within 0 1 load.toNat, .load)])
  | .loadRead id => firstFailure [idCheck id]
  | .ledModeWrite id _ => firstFailure [idCheck id]
  | .ledModeRead id => firstFailure [idCheck id]
  | .ledFaultWrite id _ => firstFailure [idCheck id]
  | .ledFaultRead id => firstFailure [idCheck id]
  | .moveReadReply id position durationMs chk => firstFailure [chk2 id 2 position durationMs chk]
  | .moveStageReadReply id position durationMs chk => firstFailure [chk2 id 8 position durationMs chk]
  | .offsetReadReply id offset chk => firstFailure [chk1 id 19 offset chk]
  | .rotationLimitReadReply id low high chk => firstFailure [chk2 id 21 low high chk]
  | .voltageLimitReadReply id low high chk => firstFailure [chk2 id 23 low high chk]
  | .tempLimitReadReply id limit chk => firstFailure [chk1 id 25 limit chk]
  | .tempReadReply id temperature chk => firstFailure [chk1 id 26 temperature chk]
  | .voltageReadReply id voltage chk => firstFailure [chk1 id 27 voltage chk]
  | .positionReadReply id position chk => firstFailure [chk1 id 28 position chk]
  | .motorModeReadReply id mode speed chk => firstFailure [chk2 id 30 mode speed chk]
  | .loadReadReply id load chk => firstFailure [chk1 id 32 load chk]
  | .ledModeReadReply id mode chk => firstFailure [chk1 id 34 mode chk]
  | .ledFaultReadReply id mask chk => firstFailure [chk1 id 36 mask chk]

/-- An instruction is well-formed when nothing is wrong with it. -/
def Instr.wf (i : Instr) : Bool := i.illFormed.isNone

end Sys2Proof
end

