-- ==== Sys2Proof/Decode.lean ====
section
/-! DEFINITION. The command codes, the decoder from bytes to instructions and the encoder back
(`30_encoding.md` R90 to R107). The decoder reads a row of `spec/opcode_table.json`: header, `LEN` and `CMD` select
the row, the other bytes are its fields. It is total and refuses by name. -/

namespace Sys2Proof

/-- The code of a command (R100). -/
def Cmd.code : Cmd → Byte
  | .moveWrite => 0x01
  | .moveRead => 0x02
  | .moveStageWrite => 0x07
  | .moveStageRead => 0x08
  | .trigger => 0x0B
  | .stop => 0x0C
  | .offsetAdjust => 0x11
  | .offsetCommit => 0x12
  | .offsetRead => 0x13
  | .rotationLimitWrite => 0x14
  | .rotationLimitRead => 0x15
  | .voltageLimitWrite => 0x16
  | .voltageLimitRead => 0x17
  | .tempLimitWrite => 0x18
  | .tempLimitRead => 0x19
  | .tempRead => 0x1A
  | .voltageRead => 0x1B
  | .positionRead => 0x1C
  | .motorModeWrite => 0x1D
  | .motorModeRead => 0x1E
  | .loadWrite => 0x1F
  | .loadRead => 0x20
  | .ledModeWrite => 0x21
  | .ledModeRead => 0x22
  | .ledFaultWrite => 0x23
  | .ledFaultRead => 0x24

/-- The command with a code; none for the reserved and the invalid codes (R100, R103, R104). -/
def Cmd.ofCode (c : Byte) : Option Cmd :=
  match c.toNat with
  | 1 => some .moveWrite
  | 2 => some .moveRead
  | 7 => some .moveStageWrite
  | 8 => some .moveStageRead
  | 11 => some .trigger
  | 12 => some .stop
  | 17 => some .offsetAdjust
  | 18 => some .offsetCommit
  | 19 => some .offsetRead
  | 20 => some .rotationLimitWrite
  | 21 => some .rotationLimitRead
  | 22 => some .voltageLimitWrite
  | 23 => some .voltageLimitRead
  | 24 => some .tempLimitWrite
  | 25 => some .tempLimitRead
  | 26 => some .tempRead
  | 27 => some .voltageRead
  | 28 => some .positionRead
  | 29 => some .motorModeWrite
  | 30 => some .motorModeRead
  | 31 => some .loadWrite
  | 32 => some .loadRead
  | 33 => some .ledModeWrite
  | 34 => some .ledModeRead
  | 35 => some .ledFaultWrite
  | 36 => some .ledFaultRead
  | _ => none

/-- The request parameter count of a command, `request_np` (R100, R102). -/
def Cmd.requestNp : Cmd → BitVec 2
  | .moveWrite => 2
  | .moveRead => 0
  | .moveStageWrite => 2
  | .moveStageRead => 0
  | .trigger => 0
  | .stop => 0
  | .offsetAdjust => 1
  | .offsetCommit => 0
  | .offsetRead => 0
  | .rotationLimitWrite => 2
  | .rotationLimitRead => 0
  | .voltageLimitWrite => 2
  | .voltageLimitRead => 0
  | .tempLimitWrite => 1
  | .tempLimitRead => 0
  | .tempRead => 0
  | .voltageRead => 0
  | .positionRead => 0
  | .motorModeWrite => 2
  | .motorModeRead => 0
  | .loadWrite => 1
  | .loadRead => 0
  | .ledModeWrite => 1
  | .ledModeRead => 0
  | .ledFaultWrite => 1
  | .ledFaultRead => 0

/-- The kind of a command (R101). -/
def Cmd.kind : Cmd → Kind
  | .moveWrite => .write
  | .moveRead => .read
  | .moveStageWrite => .write
  | .moveStageRead => .read
  | .trigger => .write
  | .stop => .write
  | .offsetAdjust => .write
  | .offsetCommit => .write
  | .offsetRead => .read
  | .rotationLimitWrite => .write
  | .rotationLimitRead => .read
  | .voltageLimitWrite => .write
  | .voltageLimitRead => .read
  | .tempLimitWrite => .write
  | .tempLimitRead => .read
  | .tempRead => .read
  | .voltageRead => .read
  | .positionRead => .read
  | .motorModeWrite => .write
  | .motorModeRead => .read
  | .loadWrite => .write
  | .loadRead => .read
  | .ledModeWrite => .write
  | .ledModeRead => .read
  | .ledFaultWrite => .write
  | .ledFaultRead => .read

/-- `lo8` (R9): bits 7 to 0. -/
def lo8 (v : Word) : Byte := BitVec.ofNat 8 v.toNat

/-- `hi8` (R9): bits 15 to 8. -/
def hi8 (v : Word) : Byte := BitVec.ofNat 8 (v.toNat / 256)

/-- Parameter assembly (R96): `frame[5+2k] + 256 * frame[6+2k]`. -/
def joinBytes (lo hi : Byte) : Word := BitVec.ofNat 16 (lo.toNat + 256 * hi.toNat)

/-- `sum(b)` (R9): the integer sum of the bytes, with no wrap. -/
def byteSum (b : List Byte) : Nat := (b.map BitVec.toNat).sum

/-- `CHECKSUM(b)` (R131): `(~sum(b)) & 0xFF`. -/
def checksum (b : List Byte) : Byte := ~~~(BitVec.ofNat 8 (byteSum b))

/-- The parameter bytes, low byte first (R65, R96). -/
def Args.bytes : Args → List Byte
  | .zero => []
  | .one p0 => [lo8 p0, hi8 p0]
  | .two p0 p1 => [lo8 p0, hi8 p0, lo8 p1, hi8 p1]

/-- The summed region of a frame (R95): `ID`, `LEN = 3 + 2*np` (R92), `CMD`, parameters. -/
def frameBody (id code : Byte) (args : Args) : List Byte :=
  [id, BitVec.ofNat 8 (3 + 2 * args.np.toNat), code] ++ args.bytes

/-- A frame with a given checksum byte (R90, R91). -/
def frameWith (id code : Byte) (args : Args) (chk : Byte) : List Byte :=
  [Config.header, Config.header] ++ frameBody id code args ++ [chk]

/-- A frame with its own checksum (R90, R95). -/
def frameOf (id code : Byte) (args : Args) : List Byte :=
  frameWith id code args (checksum (frameBody id code args))

/-- Why the decoder refuses a word. -/
inductive DecodeReject where
  /-- fewer than six bytes (R92) -/
  | short
  /-- a header byte is not `0x55` (R94) -/
  | header
  /-- the command byte is no catalog code (R103) -/
  | reservedCode
  /-- the size is not 6, 8 or 10 bytes (R92) -/
  | size
  /-- `LEN` does not agree with the size (R98) -/
  | length
  /-- the code has no row of this parameter count (R102, R210) -/
  | noRow
  deriving DecidableEq, Repr

/-- The request row of format `F0` of a code (R100). -/
def request0 (c : Cmd) (id : Byte) : Option Instr :=
  match c with
  | .moveRead => some (.moveRead id)
  | .moveStageRead => some (.moveStageRead id)
  | .trigger => some (.trigger id)
  | .stop => some (.stop id)
  | .offsetCommit => some (.offsetCommit id)
  | .offsetRead => some (.offsetRead id)
  | .rotationLimitRead => some (.rotationLimitRead id)
  | .voltageLimitRead => some (.voltageLimitRead id)
  | .tempLimitRead => some (.tempLimitRead id)
  | .tempRead => some (.tempRead id)
  | .voltageRead => some (.voltageRead id)
  | .positionRead => some (.positionRead id)
  | .motorModeRead => some (.motorModeRead id)
  | .loadRead => some (.loadRead id)
  | .ledModeRead => some (.ledModeRead id)
  | .ledFaultRead => some (.ledFaultRead id)
  | .moveWrite | .moveStageWrite | .offsetAdjust | .rotationLimitWrite | .voltageLimitWrite | .tempLimitWrite
  | .motorModeWrite | .loadWrite | .ledModeWrite | .ledFaultWrite => none

/-- The request row of format `F1` of a code (R100). -/
def request1 (c : Cmd) (id : Byte) (p0 : Word) : Option Instr :=
  match c with
  | .offsetAdjust => some (.offsetAdjust id p0)
  | .tempLimitWrite => some (.tempLimitWrite id p0)
  | .loadWrite => some (.loadWrite id p0)
  | .ledModeWrite => some (.ledModeWrite id p0)
  | .ledFaultWrite => some (.ledFaultWrite id p0)
  | .moveWrite | .moveRead | .moveStageWrite | .moveStageRead | .trigger | .stop | .offsetCommit | .offsetRead
  | .rotationLimitWrite | .rotationLimitRead | .voltageLimitWrite | .voltageLimitRead | .tempLimitRead | .tempRead
  | .voltageRead | .positionRead | .motorModeWrite | .motorModeRead | .loadRead | .ledModeRead | .ledFaultRead => none

/-- The request row of format `F2` of a code (R100). -/
def request2 (c : Cmd) (id : Byte) (p0 p1 : Word) : Option Instr :=
  match c with
  | .moveWrite => some (.moveWrite id p0 p1)
  | .moveStageWrite => some (.moveStageWrite id p0 p1)
  | .rotationLimitWrite => some (.rotationLimitWrite id p0 p1)
  | .voltageLimitWrite => some (.voltageLimitWrite id p0 p1)
  | .motorModeWrite => some (.motorModeWrite id p0 p1)
  | .moveRead | .moveStageRead | .trigger | .stop | .offsetAdjust | .offsetCommit | .offsetRead
  | .rotationLimitRead | .voltageLimitRead | .tempLimitWrite | .tempLimitRead | .tempRead | .voltageRead
  | .positionRead | .motorModeRead | .loadWrite | .loadRead | .ledModeWrite | .ledModeRead | .ledFaultWrite
  | .ledFaultRead => none

/-- The reply row of format `F1` of a code (R210). -/
def reply1 (c : Cmd) (id : Byte) (p0 : Word) (chk : Byte) : Option Instr :=
  match c with
  | .offsetRead => some (.offsetReadReply id p0 chk)
  | .tempLimitRead => some (.tempLimitReadReply id p0 chk)
  | .tempRead => some (.tempReadReply id p0 chk)
  | .voltageRead => some (.voltageReadReply id p0 chk)
  | .positionRead => some (.positionReadReply id p0 chk)
  | .loadRead => some (.loadReadReply id p0 chk)
  | .ledModeRead => some (.ledModeReadReply id p0 chk)
  | .ledFaultRead => some (.ledFaultReadReply id p0 chk)
  | .moveWrite | .moveRead | .moveStageWrite | .moveStageRead | .trigger | .stop | .offsetAdjust | .offsetCommit
  | .rotationLimitWrite | .rotationLimitRead | .voltageLimitWrite | .voltageLimitRead | .tempLimitWrite
  | .motorModeWrite | .motorModeRead | .loadWrite | .ledModeWrite | .ledFaultWrite => none

/-- The reply row of format `F2` of a code (R210). -/
def reply2 (c : Cmd) (id : Byte) (p0 p1 : Word) (chk : Byte) : Option Instr :=
  match c with
  | .moveRead => some (.moveReadReply id p0 p1 chk)
  | .moveStageRead => some (.moveStageReadReply id p0 p1 chk)
  | .rotationLimitRead => some (.rotationLimitReadReply id p0 p1 chk)
  | .voltageLimitRead => some (.voltageLimitReadReply id p0 p1 chk)
  | .motorModeRead => some (.motorModeReadReply id p0 p1 chk)
  | .moveWrite | .moveStageWrite | .trigger | .stop | .offsetAdjust | .offsetCommit | .offsetRead
  | .rotationLimitWrite | .voltageLimitWrite | .tempLimitWrite | .tempLimitRead | .tempRead | .voltageRead
  | .positionRead | .motorModeWrite | .loadWrite | .loadRead | .ledModeWrite | .ledModeRead | .ledFaultWrite
  | .ledFaultRead => none

/-- A row, if there is one; else the refusal that says there is none. -/
def orNoRow : Option Instr → Except DecodeReject Instr
  | some i => .ok i
  | none => .error .noRow

/-- The instruction a byte sequence is the row of (R107): header, `LEN` and `CMD` are matched, `ID`, the parameters
and the `CHK` byte are fields. The `CHK` of a request row is no operand of the command port (R110) and is not
looked at (log 6); that of a reply row is kept, as received. -/
def decode (b : List Byte) : Except DecodeReject Instr :=
  match b with
  | h0 :: h1 :: id :: len :: code :: k :: rest =>
    if h0 ≠ Config.header ∨ h1 ≠ Config.header then .error .header
    else match Cmd.ofCode code with
      | none => .error .reservedCode
      | some c =>
        match rest with
        | [] => if len = 3 then orNoRow (request0 c id) else .error .length
        | [a1, chk] =>
          if len = 5 then orNoRow (request1 c id (joinBytes k a1) <|> reply1 c id (joinBytes k a1) chk)
          else .error .length
        | [a1, b0, b1, chk] =>
          if len = 7 then
            orNoRow (request2 c id (joinBytes k a1) (joinBytes b0 b1)
              <|> reply2 c id (joinBytes k a1) (joinBytes b0 b1) chk)
          else .error .length
        | _ => .error .size
  | _ => .error .short

/-- The instruction a command on the port stands for (R110), none when its code is invalid or its parameter count is
not the code's (R165 step 1). -/
def decodeCommand (p : PortCmd) : Option Instr :=
  match Cmd.ofCode p.code with
  | none => none
  | some c =>
    match p.args with
    | .zero => request0 c p.id
    | .one p0 => request1 c p.id p0
    | .two p0 p1 => request2 c p.id p0 p1

/-- What an instruction is made of: its command, its ID, its parameters, and, for a reply row, its `CHK` byte. -/
structure Fields where
  cmd  : Cmd
  id   : Byte
  args : Args
  chk  : Option Byte
  deriving DecidableEq, Repr

/-- The fields of an instruction (R91, R107). -/
def Instr.fields : Instr → Fields
  | .moveWrite id position durationMs => ⟨.moveWrite, id, .two position durationMs, none⟩
  | .moveRead id => ⟨.moveRead, id, .zero, none⟩
  | .moveStageWrite id position durationMs => ⟨.moveStageWrite, id, .two position durationMs, none⟩
  | .moveStageRead id => ⟨.moveStageRead, id, .zero, none⟩
  | .trigger id => ⟨.trigger, id, .zero, none⟩
  | .stop id => ⟨.stop, id, .zero, none⟩
  | .offsetAdjust id offset => ⟨.offsetAdjust, id, .one offset, none⟩
  | .offsetCommit id => ⟨.offsetCommit, id, .zero, none⟩
  | .offsetRead id => ⟨.offsetRead, id, .zero, none⟩
  | .rotationLimitWrite id low high => ⟨.rotationLimitWrite, id, .two low high, none⟩
  | .rotationLimitRead id => ⟨.rotationLimitRead, id, .zero, none⟩
  | .voltageLimitWrite id low high => ⟨.voltageLimitWrite, id, .two low high, none⟩
  | .voltageLimitRead id => ⟨.voltageLimitRead, id, .zero, none⟩
  | .tempLimitWrite id limit => ⟨.tempLimitWrite, id, .one limit, none⟩
  | .tempLimitRead id => ⟨.tempLimitRead, id, .zero, none⟩
  | .tempRead id => ⟨.tempRead, id, .zero, none⟩
  | .voltageRead id => ⟨.voltageRead, id, .zero, none⟩
  | .positionRead id => ⟨.positionRead, id, .zero, none⟩
  | .motorModeWrite id mode speed => ⟨.motorModeWrite, id, .two mode speed, none⟩
  | .motorModeRead id => ⟨.motorModeRead, id, .zero, none⟩
  | .loadWrite id load => ⟨.loadWrite, id, .one load, none⟩
  | .loadRead id => ⟨.loadRead, id, .zero, none⟩
  | .ledModeWrite id mode => ⟨.ledModeWrite, id, .one mode, none⟩
  | .ledModeRead id => ⟨.ledModeRead, id, .zero, none⟩
  | .ledFaultWrite id mask => ⟨.ledFaultWrite, id, .one mask, none⟩
  | .ledFaultRead id => ⟨.ledFaultRead, id, .zero, none⟩
  | .moveReadReply id position durationMs chk => ⟨.moveRead, id, .two position durationMs, some chk⟩
  | .moveStageReadReply id position durationMs chk => ⟨.moveStageRead, id, .two position durationMs, some chk⟩
  | .offsetReadReply id offset chk => ⟨.offsetRead, id, .one offset, some chk⟩
  | .rotationLimitReadReply id low high chk => ⟨.rotationLimitRead, id, .two low high, some chk⟩
  | .voltageLimitReadReply id low high chk => ⟨.voltageLimitRead, id, .two low high, some chk⟩
  | .tempLimitReadReply id limit chk => ⟨.tempLimitRead, id, .one limit, some chk⟩
  | .tempReadReply id temperature chk => ⟨.tempRead, id, .one temperature, some chk⟩
  | .voltageReadReply id voltage chk => ⟨.voltageRead, id, .one voltage, some chk⟩
  | .positionReadReply id position chk => ⟨.positionRead, id, .one position, some chk⟩
  | .motorModeReadReply id mode speed chk => ⟨.motorModeRead, id, .two mode speed, some chk⟩
  | .loadReadReply id load chk => ⟨.loadRead, id, .one load, some chk⟩
  | .ledModeReadReply id mode chk => ⟨.ledModeRead, id, .one mode, some chk⟩
  | .ledFaultReadReply id mask chk => ⟨.ledFaultRead, id, .one mask, some chk⟩

/-- Whether an instruction is a reply row. -/
def Instr.isReply (i : Instr) : Bool := i.fields.chk.isSome

/-- The command on the port that a request row stands for (R110). -/
def Instr.portCmd (i : Instr) : PortCmd := ⟨i.fields.id, i.fields.cmd.code, i.fields.args⟩

/-- The bytes of an instruction (R90 to R96): a request with the checksum `ENCODE` computes, a reply with its own. -/
def encode (i : Instr) : List Byte :=
  let f := i.fields
  match f.chk with
  | none => frameOf f.id f.cmd.code f.args
  | some chk => frameWith f.id f.cmd.code f.args chk

/-- The reply row a received byte sequence is, if it is one. A request row that is received (an echo, R296) is no
command. -/
def decodeReply (b : List Byte) : Option Instr :=
  match decode b with
  | .ok i => if i.isReply then some i else none
  | .error _ => none

/-- The bytes of a word of `n` bytes, byte 0 most significant: the numbering of `spec/opcode_table.json` (R91,
R107). -/
def bytesMsb (n w : Nat) : List Byte := (List.range n).map fun k => BitVec.ofNat 8 (w / 256 ^ (n - 1 - k))

/-- The bytes of a word of `n` bytes, byte 0 least significant. -/
def bytesLsb (n w : Nat) : List Byte := (List.range n).map fun k => BitVec.ofNat 8 (w / 256 ^ k)

/-- The bytes of a table word (log 6): in the table's numbering where they are a row of it, else byte 0 first. -/
def tableBytes (nbits w : Nat) : List Byte :=
  match decode (bytesMsb (nbits / 8) w) with
  | .ok _ => bytesMsb (nbits / 8) w
  | .error _ => bytesLsb (nbits / 8) w

/-- The instruction the decoder reads from a table word. -/
def decodeTableWord (nbits w : Nat) : Option Instr := (decode (tableBytes nbits w)).toOption

end Sys2Proof
end

