-- ==== Sys2Proof/Machine/State.lean ====
section
/-! DEFINITION. The state of the engine (`10_state.md`), with what the outside world does to it held as plain data,
the state after reset (R37), and the reasons a step can stop. -/

namespace Sys2Proof.Machine

/-- The sequencer's five states in use (R22). Values 5 to 7 of its three bits are never entered. -/
inductive Phase where
  | idle
  | check
  | tx
  | settle
  | poll
  deriving DecidableEq, Repr

/-- The line direction flag `DIR` (R24). -/
inductive Dir where
  | unset
  | write
  | read
  deriving DecidableEq, Repr

/-- How an attempt ended that brought no valid reply (R26). -/
inductive AttemptOutcome where
  | timeout
  | corrupt
  deriving DecidableEq, Repr

/-- The results of R240: `Ok` and the seven error kinds. -/
inductive Status where
  | ok
  | outOfRange
  | invalidParameterCount
  | decodeEmpty
  | decodeCorrupt
  | ioFailure
  | timeout
  | corrupt
  deriving DecidableEq, Repr

/-- One external call, with its argument and its answer (R34). -/
inductive Event where
  | setWriteMode
  | setReadMode
  | write (bytes : List Byte) (ok : Bool)
  | readAvailable (bytes : List Byte)
  | wait (ticks : Nat)
  | now (ticks : Nat)
  deriving DecidableEq, Repr

/-- A `ServoState` snapshot (R30). A field is `none` exactly when its *written* bit is 0. -/
structure ServoState where
  targetPos    : Option Word
  targetDur    : Option Word
  targetStaged : Option Bool
  rotLow       : Option Word
  rotHigh      : Option Word
  voltLow      : Option Word
  voltHigh     : Option Word
  tempLimit    : Option Word
  offset       : Option Int
  load         : Option Bool
  ledMode      : Option Word
  ledFaultMask : Option Word
  deriving DecidableEq, Repr

/-- The snapshot with every written bit 0 (R37). -/
def ServoState.unwritten : ServoState :=
  ⟨none, none, none, none, none, none, none, none, none, none, none, none⟩

/-- What the outside world does, in order (R262, R10). -/
inductive Input where
  /-- the host presents a command (R25) -/
  | present (c : PortCmd)
  /-- bytes reach the UART (R36); the answer of the poll that meets it (U8), `[]` for a poll that finds none -/
  | arrive (bytes : List Byte)
  /-- the host reads the reply registers (R29, R262) -/
  | readReply
  /-- the host reads the snapshot of an ID (R33, R262) -/
  | readShadow (id : Byte)
  /-- the host uses the UART or the direction GPIO itself (R262, U16) -/
  | bypass
  deriving DecidableEq, Repr

/-- How many free values of each kind have been used (log 5): the model's own counters, which index the constants of
Config. -/
structure Draws where
  write  : Nat
  wait   : Nat
  lapse  : Nat
  arrive : Nat
  value  : Nat
  deriving DecidableEq, Repr

/-- The state of the machine. -/
structure State where
  -- operand latches x[0] to x[4] (R20)
  xId       : Byte
  xCmd      : Byte
  xNp       : BitVec 2
  xP0       : Word
  xP1       : Word
  -- sequencer and flag (R22, R24)
  phase     : Phase
  dir       : Dir
  -- query bookkeeping (R26)
  t0        : Nat
  attempts  : Nat
  pollCnt   : Nat
  outcome   : AttemptOutcome
  -- buffers (R27, R28)
  txbuf     : List Byte
  rxbuf     : List Byte
  -- result registers (R29)
  resValid  : Bool
  resStatus : Status
  resId     : Byte
  resCmd    : Byte
  resNp     : BitVec 2
  resP0     : Word
  resP1     : Word
  -- shadow file (R30): rising IDs, no unwritten entry
  shadow    : List (Nat × ServoState)
  -- trace (R34)
  trace     : List Event
  -- the implementation's parameters (R5, R8): no step changes them
  timing    : Timing
  -- the outside world: clock, transmit stream, UART receive store, what comes next, what the primitives answer
  -- (`lapses`: the time that passes outside `write` and `wait` before each coming `now()`), the reset input: the
  -- transitions to the next reset, and after it to the one after that, and so on
  clock       : Nat
  wire        : List Byte
  rxStore     : List Byte
  inputs      : List Input
  writes      : List WriteAnswer
  waits       : List Nat
  lapses      : List Nat
  resetIn     : Option Nat
  resetsAfter : List Nat
  draws       : Draws
  deriving DecidableEq, Repr

/-- Why the machine stops. No command stops it: every error of a command is a result (R240). Both reasons are the
host's reads of what holds no value. -/
inductive Fault where
  /-- raised by a host read of the reply registers while they hold no value (R29, U14: "a read of them is meaningless
  and a model should fault it"); safe -/
  | noReplyValue
  /-- raised by a host read of the snapshot of ID 254 or 255, which have no shadow entry (R30); safe -/
  | noShadowEntry
  deriving DecidableEq, Repr

/-- What the model gives no meaning. -/
inductive Refusal where
  /-- an instruction whose arm of exec has no meaning yet; safe -/
  | notModelled (mnemonic : String)
  /-- a host that uses the UART or the direction GPIO itself "has left the model" (R262, U16: `refuse`); safe -/
  | hostBypass
  deriving DecidableEq, Repr

/-- `BUSY` (R24): 1 exactly when `phase != IDLE`. -/
def State.busy (s : State) : Bool := s.phase != .idle

/-- The state right after reset (R37, R280), on a machine with the parameters of Config and an outside world that has
done nothing yet. Where R37 says "no value" the value is log 7's; what U17 says may be anything is free. -/
def State.reset : State where
  xId       := 0
  xCmd      := 0
  xNp       := 0
  xP0       := 0
  xP1       := 0
  phase     := .idle
  dir       := .unset
  t0        := 0
  attempts  := 0
  pollCnt   := 0
  outcome   := .timeout
  txbuf     := []
  rxbuf     := []
  resValid  := false
  resStatus := .ok
  resId     := 0
  resCmd    := 0
  resNp     := 0
  resP0     := 0
  resP1     := 0
  shadow    := []
  trace     := []
  timing    := Config.timing
  clock       := Config.freeClock
  wire        := []
  rxStore     := Config.freeStore
  inputs      := []
  writes      := []
  waits       := []
  lapses      := []
  resetIn     := none
  resetsAfter := []
  draws       := ⟨0, 0, 0, 0, 0⟩

end Sys2Proof.Machine
end

