-- ==== Sys2Proof/Machine/Operands.lean ====
section
/-! DEFINITION. The operand forms: signed and unsigned readings of a 16-bit pattern (`00_scope.md` R9,
`30_encoding.md` R97), the range checks of the write commands (`00_scope.md` R6, `60_exceptions.md` R241), and the
typed results of the read commands (`43_read_commands.md` R211). -/

namespace Sys2Proof.Machine

/-- `u16(v)` (R9). -/
def u16 (v : Word) : Nat := v.toNat

/-- `s16(v)` (R9): `v` if `v < 32768`, else `v - 65536`. -/
def s16 (v : Word) : Int := if v.toNat < 32768 then (v.toNat : Int) else (v.toNat : Int) - 65536

/-- `tc16(n)` (R9): the 16-bit pattern `n mod 65536`. -/
def tc16 (n : Int) : Word := BitVec.ofInt 16 n

/-- The range check of a move (R182, R183). -/
def moveInRange (position durationMs : Word) : Bool :=
  decide (u16 position ≤ 1000) && decide (u16 durationMs ≤ 30000)

/-- The range check of an offset (R186). -/
def offsetOk (offset : Word) : Bool := decide (-125 ≤ s16 offset) && decide (s16 offset ≤ 125)

/-- The range check of rotation limits (R188). -/
def rotationLimitsOk (low high : Word) : Bool := decide (u16 low < u16 high) && decide (u16 high ≤ 1000)

/-- The range check of voltage limits (R189). -/
def voltageLimitsOk (low high : Word) : Bool :=
  decide (4500 ≤ u16 low) && decide (u16 low < u16 high) && decide (u16 high ≤ 12000)

/-- The range check of a temperature limit (R190). -/
def tempLimitOk (limit : Word) : Bool := decide (50 ≤ u16 limit) && decide (u16 limit ≤ 100)

/-- The range check of a load value (R192). -/
def loadOk (load : Word) : Bool := decide (u16 load ≤ 1)

/-- A load value as a truth value: any non-zero value is loaded (R222). -/
def loaded (load : Word) : Bool := u16 load != 0

/-- The typed result of a read command (R211). -/
inductive Typed where
  | unsigned (n : Nat)
  | signed (n : Int)
  | unsignedPair (a b : Nat)
  | unsignedSigned (a : Nat) (b : Int)
  | truth (b : Bool)
  deriving DecidableEq, Repr

end Sys2Proof.Machine
end

