-- ==== Sys2Proof/Machine/Flags.lean ====
section
/-! DEFINITION. The numeric codes of the engine's flags and status (`10_state.md` R22, R24, `60_exceptions.md` R240)
and what the host can read of the engine (`10_state.md` R35). The engine has no arithmetic flag (R24). -/

namespace Sys2Proof.Machine

/-- The value of `phase` (R22). -/
def Phase.code : Phase → BitVec 3
  | .idle => 0
  | .check => 1
  | .tx => 2
  | .settle => 3
  | .poll => 4

/-- The value of `DIR` (R24). -/
def Dir.code : Dir → BitVec 2
  | .unset => 0
  | .write => 1
  | .read => 2

/-- The value of `outcome` (R26). -/
def AttemptOutcome.code : AttemptOutcome → BitVec 1
  | .timeout => 0
  | .corrupt => 1

/-- The value of `RES_STATUS` (R240). -/
def Status.code : Status → BitVec 3
  | .ok => 0
  | .outOfRange => 1
  | .invalidParameterCount => 2
  | .decodeEmpty => 3
  | .decodeCorrupt => 4
  | .ioFailure => 5
  | .timeout => 6
  | .corrupt => 7

/-- The error a query ends with (R156): that of its last attempt. -/
def AttemptOutcome.status : AttemptOutcome → Status
  | .timeout => .timeout
  | .corrupt => .corrupt

/-- Whether the reply registers hold a reply (R29): after a read command that ended `Ok`, and only then. -/
def replyHeld (s : State) : Bool :=
  s.resValid && s.resStatus == .ok && (Cmd.ofCode s.xCmd).map Cmd.kind == some .read

end Sys2Proof.Machine
end

