-- ==== Sys2Proof/Machine/Codec.lean ====
section
/-! DEFINITION. The frame codec (`40_codec.md`): `ENCODE` and `DECODE`. `CHECKSUM` is `Sys2Proof.checksum`. None of
the three reads or writes state (R130). -/

namespace Sys2Proof.Machine

/-- `ENCODE(id, cmd, np, p0, p1)` (R132). Its one error is `InvalidParameterCount`. -/
def encodeFrame (id code : Byte) (np : BitVec 2) (p0 p1 : Word) : Except Status (List Byte) :=
  match Cmd.ofCode code with
  | none => .error .invalidParameterCount
  | some c =>
    if np ≠ c.requestNp then .error .invalidParameterCount
    else
      let params :=
        if np = 0 then [] else if np = 1 then [lo8 p0, hi8 p0] else [lo8 p0, hi8 p0, lo8 p1, hi8 p1]
      let body := [id, BitVec.ofNat 8 (3 + 2 * np.toNat), code] ++ params
      .ok ([Config.header, Config.header] ++ body ++ [checksum body])

/-- A `Reply` (R134): the parameters beyond its count hold no value. -/
structure Reply where
  id   : Byte
  code : Byte
  args : Args
  deriving DecidableEq, Repr

/-- What `DECODE` answers (R134). -/
inductive DecodeResult where
  | ok (r : Reply)
  | empty
  | corrupt
  deriving DecidableEq, Repr

/-- `buf[i]`; read only where the buffer has a byte. -/
def byteAt (buf : List Byte) (i : Nat) : Byte := buf.getD i 0

/-- The summed region `buf[2 .. n-2]` of a buffer of `n` bytes (R131). -/
def summedRegion (buf : List Byte) : List Byte := (buf.take (buf.length - 1)).drop 2

/-- `DECODE(buf, expected)` (R135): the tests in the order of the rule. -/
def decodeFrame (buf : List Byte) (expected : Byte) : DecodeResult :=
  let n := buf.length
  let len := (byteAt buf 3).toNat
  if n < Config.minFrame then .empty
  else if byteAt buf 0 ≠ Config.header ∨ byteAt buf 1 ≠ Config.header then .corrupt
  else if len ≠ 3 ∧ len ≠ 5 ∧ len ≠ 7 then .corrupt
  else if n ≠ len + 3 then .corrupt
  else if byteAt buf (n - 1) ≠ checksum (summedRegion buf) then .corrupt
  else if byteAt buf 4 ≠ expected then .corrupt
  else if Cmd.ofCode (byteAt buf 4) = none then .corrupt
  else
    let p0 := joinBytes (byteAt buf 5) (byteAt buf 6)
    let p1 := joinBytes (byteAt buf 7) (byteAt buf 8)
    let args := if len = 3 then Args.zero else if len = 5 then Args.one p0 else Args.two p0 p1
    .ok ⟨byteAt buf 2, byteAt buf 4, args⟩

end Sys2Proof.Machine
end

