-- ==== Sys2Proof/Machine/Shadow.lean ====
section
/-! DEFINITION. The shadow file (`10_state.md` R30 to R33): a list of IDs with their snapshots, in one canonical form:
IDs strictly rising and below 254, no entry equal to what an unlisted ID reads as. -/

namespace Sys2Proof.Machine

/-- `SHADOW[id]`: an ID that is not listed has every written bit 0. -/
def shadowGet : List (Nat × ServoState) → Nat → ServoState
  | [], _ => ServoState.unwritten
  | (k, v) :: rest, id => if id = k then v else shadowGet rest id

/-- `SHADOW[id] <- v`; writing the unwritten snapshot removes the entry. -/
def shadowSet : List (Nat × ServoState) → Nat → ServoState → List (Nat × ServoState)
  | [], id, v => if v = ServoState.unwritten then [] else [(id, v)]
  | (k, w) :: rest, id, v =>
    if id < k then
      if v = ServoState.unwritten then (k, w) :: rest else (id, v) :: (k, w) :: rest
    else if id = k then
      if v = ServoState.unwritten then rest else (id, v) :: rest
    else (k, w) :: shadowSet rest id v

/-- The canonical form from an ID on. -/
def shadowWfFrom : Nat → List (Nat × ServoState) → Bool
  | _, [] => true
  | lo, (k, v) :: rest =>
    decide (lo ≤ k) && decide (k ≤ 253) && decide (v ≠ ServoState.unwritten) && shadowWfFrom (k + 1) rest

/-- The canonical form of the shadow file. -/
def shadowWf (l : List (Nat × ServoState)) : Bool := shadowWfFrom 0 l

end Sys2Proof.Machine
end

