-- ==== Sys2Proof/Machine/Ops.lean ====
section
/-! DEFINITION. The named operations over the state: the external primitives (`00_scope.md` R10), acceptance of a
command (`10_state.md` R25), the end of a command with a result, of which taking an error is one case
(`60_exceptions.md` R251), and the reset input (`70_reset_and_hazards.md` R280). There is no return from an error: the
engine is `IDLE` and takes the next command (R252). -/

namespace Sys2Proof.Machine

/-! ## External primitives -/

/-- `set_write_mode(); DIR <- WRITE` (R24, R154). -/
def setWriteMode (s : State) : State := { s with dir := .write, trace := s.trace ++ [.setWriteMode] }

/-- `set_read_mode(); DIR <- READ` (R24, R155). -/
def setReadMode (s : State) : State := { s with dir := .read, trace := s.trace ++ [.setReadMode] }

/-- What the next `write` answers: as the state says, else free (log 4). -/
def writeAnswer (s : State) : WriteAnswer :=
  match s.writes with
  | a :: _ => a
  | [] => Config.freeWrite s.draws.write

/-- `write(txbuf)` (R10, R67): one call, the whole frame. If it fails, some first bytes of the frame, any number of
them, reached the line (U4). -/
def writeLine (s : State) : State :=
  let a := writeAnswer s
  { s with
    trace  := s.trace ++ [.write s.txbuf a.ok]
    wire   := s.wire ++ (if a.ok then s.txbuf else s.txbuf.take a.sent)
    clock  := s.clock + a.dur
    writes := s.writes.tail
    draws  := { s.draws with write := s.draws.write + 1 } }

/-- By how much the next `wait` is longer than asked: as the state says, else free (log 4). -/
def waitExcess (s : State) : Nat :=
  match s.waits with
  | e :: _ => e
  | [] => Config.freeWaitExcess s.draws.wait

/-- `wait(t)` (R10): returns no earlier than `t` ticks later. -/
def waitFor (t : Nat) (s : State) : State :=
  { s with
    trace := s.trace ++ [.wait t]
    clock := s.clock + t + waitExcess s
    waits := s.waits.tail
    draws := { s.draws with wait := s.draws.wait + 1 } }

/-- How much time has passed outside `write` and `wait` when `now()` is next called: as the state says, else free
(log 10). -/
def lapse (s : State) : Nat :=
  match s.lapses with
  | d :: _ => d
  | [] => Config.freeLapse s.draws.lapse

/-- What the next `now()` answers (R10, R12): any number not below the last. -/
def clockAnswer (s : State) : Nat := s.clock + lapse s

/-- `now()` (R10). -/
def readClock (s : State) : State :=
  { s with
    trace  := s.trace ++ [.now (clockAnswer s)]
    clock  := clockAnswer s
    lapses := s.lapses.tail
    draws  := { s.draws with lapse := s.draws.lapse + 1 } }

/-- Bytes reach the UART's receive store (R36). -/
def receive (bytes : List Byte) (s : State) : State := { s with rxStore := s.rxStore ++ bytes }

/-- The bytes that reach the UART before the next poll: as the state says, else free (log 4). -/
def arrival (s : State) : List Byte :=
  match s.inputs with
  | .arrive bytes :: _ => bytes
  | _ => Config.freeArrival s.draws.arrive

/-- The state once the next poll has met the arrival. -/
def dropArrival (s : State) : State :=
  match s.inputs with
  | .arrive _ :: rest => { s with inputs := rest }
  | _ => { s with draws := { s.draws with arrive := s.draws.arrive + 1 } }

/-- `rxbuf <- read_available()` (R10, R157): every byte received and not yet handed over, and the store is empty. -/
def readAvailable (s : State) : State :=
  { s with rxbuf := s.rxStore, rxStore := [], trace := s.trace ++ [.readAvailable s.rxStore] }

/-! ## Registers -/

/-- A free value for a register of `w` bits that holds "no value", counted from the state's draws. -/
def noValue (w k : Nat) (s : State) : BitVec w := Config.freeBits w (s.draws.value + k)

/-- The reply registers hold no value (R29, R251). -/
def dropReply (s : State) : State :=
  { s with
    resId  := noValue 8 0 s
    resCmd := noValue 8 1 s
    resNp  := noValue 2 2 s
    resP0  := noValue 16 3 s
    resP1  := noValue 16 4 s
    draws  := { s.draws with value := s.draws.value + 5 } }

/-- The accepted reply goes to the reply registers (R158); a parameter it does not carry has no value (R29). -/
def setReply (r : Reply) (s : State) : State :=
  { s with
    resId  := r.id
    resCmd := r.code
    resNp  := r.args.np
    resP0  := r.args.first.getD (noValue 16 0 s)
    resP1  := r.args.second.getD (noValue 16 1 s)
    draws  := { s.draws with value := s.draws.value + 2 } }

/-- Acceptance of a command (R25): all five latches at once, `RES_VALID <- 0`, `phase <- CHECK`. A latch that `NP` does
not cover holds no value (R20). -/
def accept (c : PortCmd) (s : State) : State :=
  { s with
    xId      := c.id
    xCmd     := c.code
    xNp      := c.args.np
    xP0      := c.args.first.getD (noValue 16 0 s)
    xP1      := c.args.second.getD (noValue 16 1 s)
    resValid := false
    phase    := .check
    draws    := { s.draws with value := s.draws.value + 2 } }

/-! ## The end of a command -/

/-- `RES_STATUS <- r; RES_VALID <- 1; phase <- IDLE` (R165 step 5). -/
def setResult (r : Status) (s : State) : State := { s with resStatus := r, resValid := true, phase := .idle }

/-- The end of a command that leaves no reply: a write command's `Ok` (R29). -/
def endWithoutReply (r : Status) (s : State) : State := dropReply (setResult r s)

/-- `raise e` (R251), the one operation every error is taken by: it records the code and nothing else, switches no
mode and goes to no handler; the reply registers hold no value. -/
def raise (e : Status) (s : State) : State := endWithoutReply e s

/-- The end of a read command with a reply (R158). -/
def endWithReply (r : Reply) (s : State) : State := setReply r (setResult .ok s)

/-! ## Reset -/

/-- What has reached the line of a `write` that the reset input cuts short (R282, U18): some first bytes of the frame,
as many as the answer of that `write` says. Outside phase `TX` no frame is under way. -/
def cutShort (s : State) : List Byte := if s.phase = .tx then s.txbuf.take (writeAnswer s).sent else []

/-- The reset input (R280): every piece of engine state to the value of R37, as `State.reset` has it. No external call
is made (R281); the outside world stays as it is, the UART's receive store among it, but for the bytes of a frame that
is cut short. The spec sets no bound on the number of resets in a run: the countdown to the next one starts, if the
state has one (log 9). -/
def applyReset (s : State) : State :=
  { State.reset with
    timing      := s.timing
    clock       := s.clock
    wire        := s.wire ++ cutShort s
    rxStore     := s.rxStore
    inputs      := s.inputs
    writes      := if s.phase = .tx then s.writes.tail else s.writes
    waits       := s.waits
    lapses      := s.lapses
    resetIn     := s.resetsAfter.head?
    resetsAfter := s.resetsAfter.tail
    draws       := if s.phase = .tx then { s.draws with write := s.draws.write + 1 } else s.draws }

/-- One transition of the engine under the reset input (R280): the countdown runs with the transitions, and the
transition at which it is zero is the reset (log 9). -/
def underReset (f : State → State) (s : State) : State :=
  match s.resetIn with
  | none => f s
  | some 0 => applyReset s
  | some (n + 1) => f { s with resetIn := some n }

end Sys2Proof.Machine
end

