-- ==== Sys2Proof/Machine/Transport.lean ====
section
/-! DEFINITION. The bus transport and the sequencer (`41_transport.md`): the transitions of R166, one definition per
phase, their iteration to the end of a command, and what becomes of received bytes. A command's own part (its range
check, its shadow update, its reply count) comes in as a `CmdSpec`. -/

namespace Sys2Proof.Machine

/-- What a write command adds to the common part (R181): its range check and its shadow update, if it has one, both of
the parameters. -/
structure WriteSpec where
  cmd     : Cmd
  rangeOk : Word → Word → Bool
  update  : Option (Word → Word → ServoState → ServoState)

/-- What a read command adds to the common part (R211): its `REPLY_NP` (R210) and the typing of its result. -/
structure ReadSpec where
  cmd     : Cmd
  replyNp : BitVec 2
  typed   : Word → Word → Typed

/-- A command's own part; its kind (R101) selects `SEND_COMMAND` or `QUERY` (R165). -/
inductive CmdSpec where
  | write (w : WriteSpec)
  | read (r : ReadSpec)

/-- The command a specification is of. -/
def CmdSpec.cmd : CmdSpec → Cmd
  | .write w => w.cmd
  | .read r => r.cmd

/-- The range check before any I/O (R165 step 3): a read command has none (R211). -/
def CmdSpec.rangeOk : CmdSpec → Word → Word → Bool
  | .write w => w.rangeOk
  | .read _ => fun _ _ => true

/-- The start of a query (R153): the clock is read once, `attempts <- 0`. -/
def startQuery (s : State) : State := { readClock s with t0 := clockAnswer s, attempts := 0 }

/-- Phase `CHECK` (R165 steps 1 to 3, R132): the checks in their order (R250), then `ENCODE` into `txbuf` and
`phase <- TX`; a query also takes its start time. -/
def checkPhase (k : Option CmdSpec) (s : State) : State :=
  match k with
  | none => raise .invalidParameterCount s
  | some k =>
    if s.xNp ≠ k.cmd.requestNp then raise .invalidParameterCount s
    else if s.xId = Config.idInvalid then raise .outOfRange s
    else if k.rangeOk s.xP0 s.xP1 = false then raise .outOfRange s
    else
      match encodeFrame s.xId s.xCmd s.xNp s.xP0 s.xP1 with
      | .error e => raise e s
      | .ok frame =>
        match k with
        | .write _ => { s with txbuf := frame, phase := .tx }
        | .read _ => startQuery { s with txbuf := frame, phase := .tx }

/-- The shadow update of a write command that ended `Ok` (R31); a broadcast updates no entry (R32). -/
def updateShadow (w : WriteSpec) (s : State) : State :=
  match w.update with
  | none => s
  | some f =>
    if s.xId.toNat ≤ Config.idMaxUnicast.toNat then
      { s with shadow := shadowSet s.shadow s.xId.toNat (f s.xP0 s.xP1 (shadowGet s.shadow s.xId.toNat)) }
    else s

/-- The start of an attempt (R152): `attempts <- attempts + 1; poll_cnt <- 0; outcome <- TIMEOUT`. -/
def startAttempt (s : State) : State :=
  { s with attempts := s.attempts + 1, pollCnt := 0, outcome := .timeout }

/-- The transmission (R150, R154): `set_write_mode()`, then one `write`. -/
def transmit (s : State) : State := writeLine (setWriteMode s)

/-- Phase `TX` (R150, R151, R154, R166). A write command ends here, with its shadow update; a read command goes on to
`SETTLE`; a failed `write` ends either with `IoFailure`. -/
def txPhase (k : Option CmdSpec) (s : State) : State :=
  match k with
  | none => raise .invalidParameterCount s
  | some (.write w) =>
    if (writeAnswer s).ok then endWithoutReply .ok (updateShadow w (transmit s)) else raise .ioFailure (transmit s)
  | some (.read _) =>
    if (writeAnswer s).ok then { transmit (startAttempt s) with phase := .settle }
    else raise .ioFailure (transmit (startAttempt s))

/-- Phase `SETTLE` (R155): the settle wait, then the turn-around. -/
def settlePhase (s : State) : State := { setReadMode (waitFor s.timing.tSettle s) with phase := .poll }

/-- The end of an attempt without a reply (R156): the budget is compared, and either another attempt starts or the
query ends with the error of this attempt. -/
def endAttempt (s : State) : State :=
  let s1 := readClock s
  if s.timing.tBudget ≤ s1.clock - s.t0 then raise s.outcome.status s1 else { s1 with phase := .tx }

/-- `REPLY_NP` of the command in progress (R210). -/
def replyNpOf : Option CmdSpec → Option (BitVec 2)
  | some (.read r) => some r.replyNp
  | _ => none

/-- The reply in a poll's bytes, when R158 accepts them: `DECODE` under the query's own code, and the right count. -/
def acceptedReply (k : Option CmdSpec) (code : Byte) (bytes : List Byte) : Option Reply :=
  match decodeFrame bytes code with
  | .ok r => if replyNpOf k = some r.args.np then some r else none
  | _ => none

/-- One poll (R157 to R160), its bytes being what the UART's store holds: an empty one is followed by `wait(T_POLL)`
and ends the attempt when it was the last; accepted bytes end the query; others end the attempt as `CORRUPT`. -/
def pollPhase (k : Option CmdSpec) (s : State) : State :=
  let s1 := readAvailable { s with pollCnt := s.pollCnt + 1 }
  let s2 := { s1 with rxbuf := [] }
  if s1.rxbuf = [] then
    let s3 := waitFor s.timing.tPoll s2
    if s3.pollCnt < s.timing.nPoll then s3 else endAttempt s3
  else
    match acceptedReply k s.xCmd s1.rxbuf with
    | some r => endWithReply r s2
    | none =>
      let s3 := { s2 with outcome := .corrupt }
      if s.timing.corruptRetry then endAttempt s3 else raise .corrupt s3

/-- What phase `POLL` does when bytes, perhaps none, have come since the last poll: the next poll, or, when `N_POLL`
polls have been made, the end of the attempt (R157, R160). -/
def pollWith (k : Option CmdSpec) (bytes : List Byte) (s : State) : State :=
  if s.pollCnt < s.timing.nPoll then pollPhase k (receive bytes s) else endAttempt (receive bytes s)

/-- Phase `POLL` of an engine left to itself: what arrives before the poll is the next arrival of the state's inputs, or
else free (log 4). -/
def pollNext (k : Option CmdSpec) (s : State) : State := pollWith k (arrival s) (dropArrival s)

/-- One transition of R166. `IDLE` has none without a command. -/
def transition (k : Option CmdSpec) (s : State) : State :=
  match s.phase with
  | .idle => s
  | .check => checkPhase k s
  | .tx => txPhase k s
  | .settle => settlePhase s
  | .poll => pollNext k s

/-- One transition, unless the reset input comes. -/
def tick (k : Option CmdSpec) (s : State) : State := underReset (transition k) s

/-- Whether the engine can go no further without the outside world: it is idle, or it polls and the state does not say
what arrives (log 1). -/
def atRest (s : State) : Bool :=
  match s.phase, s.inputs with
  | .idle, _ => true
  | .poll, .arrive _ :: _ => false
  | .poll, _ => true
  | _, _ => false

/-- At most `n` transitions, until the engine is at rest. -/
def runCommand (k : Option CmdSpec) : Nat → State → State
  | 0, s => s
  | n + 1, s => if atRest s then s else runCommand k n (tick k s)

/-- Transitions enough for any command (R162): the check, and per attempt one transmission, one settle wait and the
polls; every attempt lasts at least a tick of the budget. -/
def enoughTransitions (T : Timing) : Nat := (T.tBudget + 1) * (T.nPoll + 3) + 1

/-- The host presents a command (R25, R165): when `BUSY = 0` it is accepted and runs, to its end or to the first poll
whose bytes the state does not hold; when `BUSY = 1` nothing changes. -/
def present (k : Option CmdSpec) (c : PortCmd) (s : State) : State :=
  if s.busy then s else runCommand k (enoughTransitions s.timing) (accept c s)

/-- Bytes come to the engine's receive side: a poll in progress is answered with them (R157); otherwise they stay in
the UART until the next poll (R36, R295). -/
def deliver (k : Option CmdSpec) (bytes : List Byte) (s : State) : State :=
  if s.phase = .poll then underReset (pollWith k bytes) s else receive bytes s

end Sys2Proof.Machine
end

