-- ==== Sys2Proof/Machine/Limits.lean ====
section
/-! DEFINITION. The meanings of the limit commands (R188 to R190, R215 to R217): for each command its own part, and its meaning,
which presents it on the command port. -/

namespace Sys2Proof.Machine

/-- R188, `set_rotation_limits(low, high)`. -/
def rotationLimitWriteSpec : WriteSpec where
  cmd     := .rotationLimitWrite
  rangeOk := rotationLimitsOk
  update  := some fun p0 p1 e => { e with rotLow := some p0, rotHigh := some p1 }

/-- `rotation-limit-write` (code 20), R188. -/
def execRotationLimitWrite (id : Byte) (low high : Word) (s : State) : Host.Outcome State Fault Refusal :=
  .next (present (some (.write rotationLimitWriteSpec)) ⟨id, 0x14, .two low high⟩ s)

/-- R215, `get_rotation_limits()`: (low, high). -/
def rotationLimitReadSpec : ReadSpec where
  cmd     := .rotationLimitRead
  replyNp := 2
  typed   := fun p0 p1 => .unsignedPair (u16 p0) (u16 p1)

/-- `rotation-limit-read` (code 21), R215. -/
def execRotationLimitRead (id : Byte) (s : State) : Host.Outcome State Fault Refusal :=
  .next (present (some (.read rotationLimitReadSpec)) ⟨id, 0x15, .zero⟩ s)

/-- R189, `set_voltage_limits(low, high)`, millivolts. -/
def voltageLimitWriteSpec : WriteSpec where
  cmd     := .voltageLimitWrite
  rangeOk := voltageLimitsOk
  update  := some fun p0 p1 e => { e with voltLow := some p0, voltHigh := some p1 }

/-- `voltage-limit-write` (code 22), R189. -/
def execVoltageLimitWrite (id : Byte) (low high : Word) (s : State) : Host.Outcome State Fault Refusal :=
  .next (present (some (.write voltageLimitWriteSpec)) ⟨id, 0x16, .two low high⟩ s)

/-- R216, `get_voltage_limits()`: (low, high), millivolts. -/
def voltageLimitReadSpec : ReadSpec where
  cmd     := .voltageLimitRead
  replyNp := 2
  typed   := fun p0 p1 => .unsignedPair (u16 p0) (u16 p1)

/-- `voltage-limit-read` (code 23), R216. -/
def execVoltageLimitRead (id : Byte) (s : State) : Host.Outcome State Fault Refusal :=
  .next (present (some (.read voltageLimitReadSpec)) ⟨id, 0x17, .zero⟩ s)

/-- R190, `set_temperature_limit(limit)`, degrees Celsius. -/
def tempLimitWriteSpec : WriteSpec where
  cmd     := .tempLimitWrite
  rangeOk := fun p0 _ => tempLimitOk p0
  update  := some fun p0 _ e => { e with tempLimit := some p0 }

/-- `temp-limit-write` (code 24), R190. -/
def execTempLimitWrite (id : Byte) (limit : Word) (s : State) : Host.Outcome State Fault Refusal :=
  .next (present (some (.write tempLimitWriteSpec)) ⟨id, 0x18, .one limit⟩ s)

/-- R217, `get_temperature_limit()`: degrees Celsius. -/
def tempLimitReadSpec : ReadSpec where
  cmd     := .tempLimitRead
  replyNp := 1
  typed   := fun p0 _ => .unsigned (u16 p0)

/-- `temp-limit-read` (code 25), R217. -/
def execTempLimitRead (id : Byte) (s : State) : Host.Outcome State Fault Refusal :=
  .next (present (some (.read tempLimitReadSpec)) ⟨id, 0x19, .zero⟩ s)

end Sys2Proof.Machine
end

