-- ==== Sys2Proof/Machine/Modes.lean ====
section
/-! DEFINITION. The meanings of the mode commands (R191 to R194, R221 to R224): for each command its own part, and its meaning,
which presents it on the command port. -/

namespace Sys2Proof.Machine

/-- R191, `set_motor_mode(mode, speed)`: no range is given, none is checked, and the shadow has no such field. -/
def motorModeWriteSpec : WriteSpec where
  cmd     := .motorModeWrite
  rangeOk := fun _ _ => true
  update  := none

/-- `motor-mode-write` (code 29), R191. -/
def execMotorModeWrite (id : Byte) (mode speed : Word) (s : State) : Host.Outcome State Fault Refusal :=
  .next (present (some (.write motorModeWriteSpec)) ⟨id, 0x1D, .two mode speed⟩ s)

/-- R221, `get_motor_mode()`: (mode, signed speed). -/
def motorModeReadSpec : ReadSpec where
  cmd     := .motorModeRead
  replyNp := 2
  typed   := fun p0 p1 => .unsignedSigned (u16 p0) (s16 p1)

/-- `motor-mode-read` (code 30), R221. -/
def execMotorModeRead (id : Byte) (s : State) : Host.Outcome State Fault Refusal :=
  .next (present (some (.read motorModeReadSpec)) ⟨id, 0x1E, .zero⟩ s)

/-- R192, `set_load(bool)`: 1 is loaded, 0 unloaded. -/
def loadWriteSpec : WriteSpec where
  cmd     := .loadWrite
  rangeOk := fun p0 _ => loadOk p0
  update  := some fun p0 _ e => { e with load := some (loaded p0) }

/-- `load-write` (code 31), R192. -/
def execLoadWrite (id : Byte) (load : Word) (s : State) : Host.Outcome State Fault Refusal :=
  .next (present (some (.write loadWriteSpec)) ⟨id, 0x1F, .one load⟩ s)

/-- R222, `read_load()`: any non-zero value is loaded. -/
def loadReadSpec : ReadSpec where
  cmd     := .loadRead
  replyNp := 1
  typed   := fun p0 _ => .truth (loaded p0)

/-- `load-read` (code 32), R222. -/
def execLoadRead (id : Byte) (s : State) : Host.Outcome State Fault Refusal :=
  .next (present (some (.read loadReadSpec)) ⟨id, 0x20, .zero⟩ s)

/-- R193, `set_led_mode(mode)`: no set of modes is given, none is checked. -/
def ledModeWriteSpec : WriteSpec where
  cmd     := .ledModeWrite
  rangeOk := fun _ _ => true
  update  := some fun p0 _ e => { e with ledMode := some p0 }

/-- `led-mode-write` (code 33), R193. -/
def execLedModeWrite (id : Byte) (mode : Word) (s : State) : Host.Outcome State Fault Refusal :=
  .next (present (some (.write ledModeWriteSpec)) ⟨id, 0x21, .one mode⟩ s)

/-- R223, `read_led_mode()`. -/
def ledModeReadSpec : ReadSpec where
  cmd     := .ledModeRead
  replyNp := 1
  typed   := fun p0 _ => .unsigned (u16 p0)

/-- `led-mode-read` (code 34), R223. -/
def execLedModeRead (id : Byte) (s : State) : Host.Outcome State Fault Refusal :=
  .next (present (some (.read ledModeReadSpec)) ⟨id, 0x22, .zero⟩ s)

/-- R194, `set_led_fault_mask(mask)`: no width is given, none is checked. -/
def ledFaultWriteSpec : WriteSpec where
  cmd     := .ledFaultWrite
  rangeOk := fun _ _ => true
  update  := some fun p0 _ e => { e with ledFaultMask := some p0 }

/-- `led-fault-write` (code 35), R194. -/
def execLedFaultWrite (id : Byte) (mask : Word) (s : State) : Host.Outcome State Fault Refusal :=
  .next (present (some (.write ledFaultWriteSpec)) ⟨id, 0x23, .one mask⟩ s)

/-- R224, `read_led_fault_mask()`. -/
def ledFaultReadSpec : ReadSpec where
  cmd     := .ledFaultRead
  replyNp := 1
  typed   := fun p0 _ => .unsigned (u16 p0)

/-- `led-fault-read` (code 36), R224. -/
def execLedFaultRead (id : Byte) (s : State) : Host.Outcome State Fault Refusal :=
  .next (present (some (.read ledFaultReadSpec)) ⟨id, 0x24, .zero⟩ s)

end Sys2Proof.Machine
end

