-- ==== Sys2Proof/Machine/Motion.lean ====
section
/-! DEFINITION. The meanings of the motion commands (`42_write_commands.md` R182 to R185, `43_read_commands.md` R212, R213): for
each command its own part, and its meaning, which presents it on the command port. -/

namespace Sys2Proof.Machine

/-- R182, `move_to(target)`: an immediate move. -/
def moveWriteSpec : WriteSpec where
  cmd     := .moveWrite
  rangeOk := moveInRange
  update  := some fun p0 p1 e => { e with targetPos := some p0, targetDur := some p1, targetStaged := some false }

/-- `move-write` (code 1), R182. -/
def execMoveWrite (id : Byte) (position durationMs : Word) (s : State) : Host.Outcome State Fault Refusal :=
  .next (present (some (.write moveWriteSpec)) ⟨id, 0x01, .two position durationMs⟩ s)

/-- R212, `get_move()`: (position, duration_ms). -/
def moveReadSpec : ReadSpec where
  cmd     := .moveRead
  replyNp := 2
  typed   := fun p0 p1 => .unsignedPair (u16 p0) (u16 p1)

/-- `move-read` (code 2), R212. -/
def execMoveRead (id : Byte) (s : State) : Host.Outcome State Fault Refusal :=
  .next (present (some (.read moveReadSpec)) ⟨id, 0x02, .zero⟩ s)

/-- R183, `stage(target)`: primes a move without executing it. -/
def moveStageWriteSpec : WriteSpec where
  cmd     := .moveStageWrite
  rangeOk := moveInRange
  update  := some fun p0 p1 e => { e with targetPos := some p0, targetDur := some p1, targetStaged := some true }

/-- `move-stage-write` (code 7), R183. -/
def execMoveStageWrite (id : Byte) (position durationMs : Word) (s : State) : Host.Outcome State Fault Refusal :=
  .next (present (some (.write moveStageWriteSpec)) ⟨id, 0x07, .two position durationMs⟩ s)

/-- R213, `get_staged()`: (position, duration_ms) of the staged move. -/
def moveStageReadSpec : ReadSpec where
  cmd     := .moveStageRead
  replyNp := 2
  typed   := fun p0 p1 => .unsignedPair (u16 p0) (u16 p1)

/-- `move-stage-read` (code 8), R213. -/
def execMoveStageRead (id : Byte) (s : State) : Host.Outcome State Fault Refusal :=
  .next (present (some (.read moveStageReadSpec)) ⟨id, 0x08, .zero⟩ s)

/-- R184, `trigger()`: starts what was staged; the shadow keeps its staged bit. -/
def triggerSpec : WriteSpec where
  cmd     := .trigger
  rangeOk := fun _ _ => true
  update  := none

/-- `trigger` (code 11), R184. -/
def execTrigger (id : Byte) (s : State) : Host.Outcome State Fault Refusal :=
  .next (present (some (.write triggerSpec)) ⟨id, 0x0B, .zero⟩ s)

/-- R185, `stop()`. -/
def stopSpec : WriteSpec where
  cmd     := .stop
  rangeOk := fun _ _ => true
  update  := none

/-- `stop` (code 12), R185. -/
def execStop (id : Byte) (s : State) : Host.Outcome State Fault Refusal :=
  .next (present (some (.write stopSpec)) ⟨id, 0x0C, .zero⟩ s)

end Sys2Proof.Machine
end

