-- ==== Sys2Proof/Machine/Offset.lean ====
section
/-! DEFINITION. The meanings of the calibration offset commands (R186, R187, R214): for each command its own part, and its
meaning, which presents it on the command port. -/

namespace Sys2Proof.Machine

/-- R186, `set_offset(offset)`, the offset signed. -/
def offsetAdjustSpec : WriteSpec where
  cmd     := .offsetAdjust
  rangeOk := fun p0 _ => offsetOk p0
  update  := some fun p0 _ e => { e with offset := some (s16 p0) }

/-- `offset-adjust` (code 17), R186. -/
def execOffsetAdjust (id : Byte) (offset : Word) (s : State) : Host.Outcome State Fault Refusal :=
  .next (present (some (.write offsetAdjustSpec)) ⟨id, 0x11, .one offset⟩ s)

/-- R187, `commit_offset()`. -/
def offsetCommitSpec : WriteSpec where
  cmd     := .offsetCommit
  rangeOk := fun _ _ => true
  update  := none

/-- `offset-commit` (code 18), R187. -/
def execOffsetCommit (id : Byte) (s : State) : Host.Outcome State Fault Refusal :=
  .next (present (some (.write offsetCommitSpec)) ⟨id, 0x12, .zero⟩ s)

/-- R214, `get_offset()`: signed. -/
def offsetReadSpec : ReadSpec where
  cmd     := .offsetRead
  replyNp := 1
  typed   := fun p0 _ => .signed (s16 p0)

/-- `offset-read` (code 19), R214. -/
def execOffsetRead (id : Byte) (s : State) : Host.Outcome State Fault Refusal :=
  .next (present (some (.read offsetReadSpec)) ⟨id, 0x13, .zero⟩ s)

end Sys2Proof.Machine
end

