-- ==== Sys2Proof/Machine/Telemetry.lean ====
section
/-! DEFINITION. The meanings of the telemetry commands (R218 to R220): for each command its own part, and its meaning, which
presents it on the command port. -/

namespace Sys2Proof.Machine

/-- R218, `read_temperature()`: degrees Celsius, unsigned. -/
def tempReadSpec : ReadSpec where
  cmd     := .tempRead
  replyNp := 1
  typed   := fun p0 _ => .unsigned (u16 p0)

/-- `temp-read` (code 26), R218. -/
def execTempRead (id : Byte) (s : State) : Host.Outcome State Fault Refusal :=
  .next (present (some (.read tempReadSpec)) ⟨id, 0x1A, .zero⟩ s)

/-- R219, `read_voltage()`: millivolts, unsigned. -/
def voltageReadSpec : ReadSpec where
  cmd     := .voltageRead
  replyNp := 1
  typed   := fun p0 _ => .unsigned (u16 p0)

/-- `voltage-read` (code 27), R219. -/
def execVoltageRead (id : Byte) (s : State) : Host.Outcome State Fault Refusal :=
  .next (present (some (.read voltageReadSpec)) ⟨id, 0x1B, .zero⟩ s)

/-- R220, `read_position()`: unsigned, not checked against 0 to 1000. -/
def positionReadSpec : ReadSpec where
  cmd     := .positionRead
  replyNp := 1
  typed   := fun p0 _ => .unsigned (u16 p0)

/-- `position-read` (code 28), R220. -/
def execPositionRead (id : Byte) (s : State) : Host.Outcome State Fault Refusal :=
  .next (present (some (.read positionReadSpec)) ⟨id, 0x1C, .zero⟩ s)

end Sys2Proof.Machine
end

