-- ==== Sys2Proof/Machine/Catalog.lean ====
section
/-! DEFINITION. The catalog of the commands' own parts, by command and by code: what the sequencer uses for the command
its latches hold. -/

namespace Sys2Proof.Machine

/-- The own part of a command (R100). -/
def specOf : Cmd → CmdSpec
  | .moveWrite => .write moveWriteSpec
  | .moveRead => .read moveReadSpec
  | .moveStageWrite => .write moveStageWriteSpec
  | .moveStageRead => .read moveStageReadSpec
  | .trigger => .write triggerSpec
  | .stop => .write stopSpec
  | .offsetAdjust => .write offsetAdjustSpec
  | .offsetCommit => .write offsetCommitSpec
  | .offsetRead => .read offsetReadSpec
  | .rotationLimitWrite => .write rotationLimitWriteSpec
  | .rotationLimitRead => .read rotationLimitReadSpec
  | .voltageLimitWrite => .write voltageLimitWriteSpec
  | .voltageLimitRead => .read voltageLimitReadSpec
  | .tempLimitWrite => .write tempLimitWriteSpec
  | .tempLimitRead => .read tempLimitReadSpec
  | .tempRead => .read tempReadSpec
  | .voltageRead => .read voltageReadSpec
  | .positionRead => .read positionReadSpec
  | .motorModeWrite => .write motorModeWriteSpec
  | .motorModeRead => .read motorModeReadSpec
  | .loadWrite => .write loadWriteSpec
  | .loadRead => .read loadReadSpec
  | .ledModeWrite => .write ledModeWriteSpec
  | .ledModeRead => .read ledModeReadSpec
  | .ledFaultWrite => .write ledFaultWriteSpec
  | .ledFaultRead => .read ledFaultReadSpec

/-- The own part of the command with a code, none for an invalid code (R103). -/
def specAt (code : Byte) : Option CmdSpec := (Cmd.ofCode code).map specOf

/-- The typed result of the last command, if it left a reply (R211). -/
def typedResult (s : State) : Option Typed :=
  if replyHeld s then
    match specAt s.resCmd with
    | some (.read r) => some (r.typed s.resP0 s.resP1)
    | _ => none
  else none

/-- Received bytes, for the command in progress. -/
def arrive (bytes : List Byte) (s : State) : State := deliver (specAt s.xCmd) bytes s

end Sys2Proof.Machine
end

