-- ==== Sys2Proof/Machine/Replies.lean ====
section
/-! DEFINITION. The meanings of the 13 reply rows (`30_encoding.md` R99, R107, `43_read_commands.md` R210): the frame,
as a device sent it, comes to the engine. A poll in progress decodes it (`41_transport.md` R157 to R159); otherwise it
stays in the UART and the next poll meets it (`70_reset_and_hazards.md` R295). -/

namespace Sys2Proof.Machine

/-- `move-read.reply` (code 2), R212. -/
def execMoveReadReply (id : Byte) (position durationMs : Word) (chk : Byte) (s : State) :
    Host.Outcome State Fault Refusal :=
  .next (arrive (frameWith id 0x02 (.two position durationMs) chk) s)

/-- `move-stage-read.reply` (code 8), R213. -/
def execMoveStageReadReply (id : Byte) (position durationMs : Word) (chk : Byte) (s : State) :
    Host.Outcome State Fault Refusal :=
  .next (arrive (frameWith id 0x08 (.two position durationMs) chk) s)

/-- `offset-read.reply` (code 19), R214. -/
def execOffsetReadReply (id : Byte) (offset : Word) (chk : Byte) (s : State) :
    Host.Outcome State Fault Refusal :=
  .next (arrive (frameWith id 0x13 (.one offset) chk) s)

/-- `rotation-limit-read.reply` (code 21), R215. -/
def execRotationLimitReadReply (id : Byte) (low high : Word) (chk : Byte) (s : State) :
    Host.Outcome State Fault Refusal :=
  .next (arrive (frameWith id 0x15 (.two low high) chk) s)

/-- `voltage-limit-read.reply` (code 23), R216. -/
def execVoltageLimitReadReply (id : Byte) (low high : Word) (chk : Byte) (s : State) :
    Host.Outcome State Fault Refusal :=
  .next (arrive (frameWith id 0x17 (.two low high) chk) s)

/-- `temp-limit-read.reply` (code 25), R217. -/
def execTempLimitReadReply (id : Byte) (limit : Word) (chk : Byte) (s : State) :
    Host.Outcome State Fault Refusal :=
  .next (arrive (frameWith id 0x19 (.one limit) chk) s)

/-- `temp-read.reply` (code 26), R218. -/
def execTempReadReply (id : Byte) (temperature : Word) (chk : Byte) (s : State) :
    Host.Outcome State Fault Refusal :=
  .next (arrive (frameWith id 0x1A (.one temperature) chk) s)

/-- `voltage-read.reply` (code 27), R219. -/
def execVoltageReadReply (id : Byte) (voltage : Word) (chk : Byte) (s : State) :
    Host.Outcome State Fault Refusal :=
  .next (arrive (frameWith id 0x1B (.one voltage) chk) s)

/-- `position-read.reply` (code 28), R220. -/
def execPositionReadReply (id : Byte) (position : Word) (chk : Byte) (s : State) :
    Host.Outcome State Fault Refusal :=
  .next (arrive (frameWith id 0x1C (.one position) chk) s)

/-- `motor-mode-read.reply` (code 30), R221. -/
def execMotorModeReadReply (id : Byte) (mode speed : Word) (chk : Byte) (s : State) :
    Host.Outcome State Fault Refusal :=
  .next (arrive (frameWith id 0x1E (.two mode speed) chk) s)

/-- `load-read.reply` (code 32), R222. -/
def execLoadReadReply (id : Byte) (load : Word) (chk : Byte) (s : State) :
    Host.Outcome State Fault Refusal :=
  .next (arrive (frameWith id 0x20 (.one load) chk) s)

/-- `led-mode-read.reply` (code 34), R223. -/
def execLedModeReadReply (id : Byte) (mode : Word) (chk : Byte) (s : State) :
    Host.Outcome State Fault Refusal :=
  .next (arrive (frameWith id 0x22 (.one mode) chk) s)

/-- `led-fault-read.reply` (code 36), R224. -/
def execLedFaultReadReply (id : Byte) (mask : Word) (chk : Byte) (s : State) :
    Host.Outcome State Fault Refusal :=
  .next (arrive (frameWith id 0x24 (.one mask) chk) s)

end Sys2Proof.Machine
end

