-- ==== Sys2Proof/Machine/Dispatch.lean ====
section
/-! DEFINITION. The dispatch of an instruction to its meaning: one arm per row of `spec/opcode_table.json`. -/

namespace Sys2Proof.Machine

def exec (i : Instr) (s : State) : Host.Outcome State Fault Refusal :=
  match i with
  | .moveWrite id position durationMs => Sys2Proof.Machine.execMoveWrite id position durationMs s
  | .moveRead id => Sys2Proof.Machine.execMoveRead id s
  | .moveStageWrite id position durationMs => Sys2Proof.Machine.execMoveStageWrite id position durationMs s
  | .moveStageRead id => Sys2Proof.Machine.execMoveStageRead id s
  | .trigger id => Sys2Proof.Machine.execTrigger id s
  | .stop id => Sys2Proof.Machine.execStop id s
  | .offsetAdjust id offset => Sys2Proof.Machine.execOffsetAdjust id offset s
  | .offsetCommit id => Sys2Proof.Machine.execOffsetCommit id s
  | .offsetRead id => Sys2Proof.Machine.execOffsetRead id s
  | .rotationLimitWrite id low high => Sys2Proof.Machine.execRotationLimitWrite id low high s
  | .rotationLimitRead id => Sys2Proof.Machine.execRotationLimitRead id s
  | .voltageLimitWrite id low high => Sys2Proof.Machine.execVoltageLimitWrite id low high s
  | .voltageLimitRead id => Sys2Proof.Machine.execVoltageLimitRead id s
  | .tempLimitWrite id limit => Sys2Proof.Machine.execTempLimitWrite id limit s
  | .tempLimitRead id => Sys2Proof.Machine.execTempLimitRead id s
  | .tempRead id => Sys2Proof.Machine.execTempRead id s
  | .voltageRead id => Sys2Proof.Machine.execVoltageRead id s
  | .positionRead id => Sys2Proof.Machine.execPositionRead id s
  | .motorModeWrite id mode speed => Sys2Proof.Machine.execMotorModeWrite id mode speed s
  | .motorModeRead id => Sys2Proof.Machine.execMotorModeRead id s
  | .loadWrite id load => Sys2Proof.Machine.execLoadWrite id load s
  | .loadRead id => Sys2Proof.Machine.execLoadRead id s
  | .ledModeWrite id mode => Sys2Proof.Machine.execLedModeWrite id mode s
  | .ledModeRead id => Sys2Proof.Machine.execLedModeRead id s
  | .ledFaultWrite id mask => Sys2Proof.Machine.execLedFaultWrite id mask s
  | .ledFaultRead id => Sys2Proof.Machine.execLedFaultRead id s
  | .moveReadReply id position durationMs chk => Sys2Proof.Machine.execMoveReadReply id position durationMs chk s
  | .moveStageReadReply id position durationMs chk => Sys2Proof.Machine.execMoveStageReadReply id position durationMs chk s
  | .offsetReadReply id offset chk => Sys2Proof.Machine.execOffsetReadReply id offset chk s
  | .rotationLimitReadReply id low high chk => Sys2Proof.Machine.execRotationLimitReadReply id low high chk s
  | .voltageLimitReadReply id low high chk => Sys2Proof.Machine.execVoltageLimitReadReply id low high chk s
  | .tempLimitReadReply id limit chk => Sys2Proof.Machine.execTempLimitReadReply id limit chk s
  | .tempReadReply id temperature chk => Sys2Proof.Machine.execTempReadReply id temperature chk s
  | .voltageReadReply id voltage chk => Sys2Proof.Machine.execVoltageReadReply id voltage chk s
  | .positionReadReply id position chk => Sys2Proof.Machine.execPositionReadReply id position chk s
  | .motorModeReadReply id mode speed chk => Sys2Proof.Machine.execMotorModeReadReply id mode speed chk s
  | .loadReadReply id load chk => Sys2Proof.Machine.execLoadReadReply id load chk s
  | .ledModeReadReply id mode chk => Sys2Proof.Machine.execLedModeReadReply id mode chk s
  | .ledFaultReadReply id mask chk => Sys2Proof.Machine.execLedFaultReadReply id mask chk s

end Sys2Proof.Machine
end

