-- ==== Sys2Proof/Machine/Fetch.lean ====
section
/-! DEFINITION. What the machine does next: which instruction it takes from the outside world, or which transition of
its own it makes. The engine fetches no program (`10_state.md` R22, `20_memory.md` R75): its instructions are the
commands the host presents and the frames that arrive. Here also stand the host's reads (`60_exceptions.md` R262). -/

namespace Sys2Proof.Machine

/-- What a step is to do. -/
inductive Fetched where
  /-- run an instruction, in the state from which it has been taken -/
  | run (i : Instr) (s : State)
  /-- nothing but this next state: no instruction is concerned -/
  | go (s : State)
  /-- stop with a fault -/
  | stop (r : Fault)
  /-- refuse -/
  | refuse (r : Refusal)

/-- A step in which nothing happens: the engine waits in `IDLE` (R280), the countdown of the reset input runs. The time
it takes is told by the next `now()` (log 10). -/
def waitIdle (s : State) : State := { s with resetIn := s.resetIn.map (· - 1) }

/-- Bytes have arrived: a reply row is an instruction, anything else goes to the receive side as it is. -/
def fetchArrival (bytes : List Byte) (s : State) : Fetched :=
  match decodeReply bytes with
  | some i => .run i s
  | none => .go (arrive bytes s)

/-- A command stands on the port: one with a valid code and its count is an instruction; any other is accepted all the
same, and ends `InvalidParameterCount` in phase `CHECK` (R103, R165 step 1). -/
def fetchCommand (c : PortCmd) (s : State) : Fetched :=
  match decodeCommand c with
  | some i => .run i s
  | none => .go (present none c s)

/-- The next input of an idle engine. -/
def fetchIdle (s : State) : Fetched :=
  match s.inputs with
  | [] => .go (waitIdle s)
  | .present c :: rest => fetchCommand c { s with inputs := rest }
  | .arrive bytes :: rest => fetchArrival bytes { s with inputs := rest }
  | .readReply :: rest => if replyHeld s then .go { s with inputs := rest } else .stop .noReplyValue
  | .readShadow id :: rest =>
    if id.toNat ≤ Config.idMaxUnicast.toNat then .go { s with inputs := rest } else .stop .noShadowEntry
  | .bypass :: _ => .refuse .hostBypass

/-- A busy engine goes on with its command; a poll meets what arrives. What the host wants waits until the engine is
idle: a command on the port (R25, log 12), a read (log 12), and a use of the UART or the direction GPIO (log 14), so that
the command in progress runs to its end before the refusal. That these wait is the model's choice: R262 and R290 forbid
the host to use the UART and the GPIO, and do not say when a run in which it does leaves the model. -/
def fetchBusy (s : State) : Fetched :=
  match s.phase, s.inputs with
  | .poll, .arrive bytes :: rest => fetchArrival bytes { s with inputs := rest }
  | _, _ => .go (tick (specAt s.xCmd) s)

/-- What the next step is to do. The reset input comes before everything (R280). -/
def fetch (s : State) : Fetched :=
  if s.resetIn = some 0 then .go (applyReset s)
  else if s.busy then fetchBusy s
  else fetchIdle s

/-- The state in which a given instruction is the next thing the machine meets: a request stands on the command port of
an idle engine, a reply has arrived. -/
def placeNext (bytes : List Byte) (s : State) : State :=
  match decode bytes with
  | .ok i =>
    if i.isReply then
      { s with
        inputs := .arrive bytes :: s.inputs
        phase := if s.phase = .poll then .poll else .idle
        resetIn := none }
    else { s with inputs := .present i.portCmd :: s.inputs, phase := .idle, resetIn := none }
  | .error _ => { s with inputs := .arrive bytes :: s.inputs, resetIn := none }

/-! ## The host's reads -/

/-- The host-readable status (R35). -/
structure StatusView where
  busy      : BitVec 1
  dir       : BitVec 2
  resValid  : BitVec 1
  resStatus : BitVec 3
  deriving DecidableEq, Repr

/-- The status the host reads, at any time and without effect (R24, R29, R35). While `RES_VALID = 0` the field
`RES_STATUS` has no value by R37 and R29: the code the register holds is answered, and no fault is raised (the model's
choice, log 24). -/
def readStatus (s : State) : StatusView :=
  ⟨BitVec.ofBool s.busy, s.dir.code, BitVec.ofBool s.resValid, s.resStatus.code⟩

/-- The reply the host reads (R29): the registers that hold a value, by the count in `RES_NP`. -/
def readReplyPort (s : State) : Option Reply :=
  if replyHeld s then
    some ⟨s.resId, s.resCmd,
      if s.resNp = 0 then .zero else if s.resNp = 1 then .one s.resP0 else .two s.resP0 s.resP1⟩
  else none

/-- The snapshot port (R33): usable when `BUSY = 0`, for the IDs that have an entry. -/
def readShadowPort (id : Byte) (s : State) : Option ServoState :=
  if s.busy = false ∧ id.toNat ≤ Config.idMaxUnicast.toNat then some (shadowGet s.shadow id.toNat) else none

end Sys2Proof.Machine
end

