-- ==== Sys2Proof/Machine/Step.lean ====
section
/-! DEFINITION. One step of the machine, and the placing of an instruction where the next step meets it. -/

namespace Sys2Proof.Machine

/-- One step: the instruction that `fetch` takes is run by `exec`; where no instruction is concerned, the state is what
`fetch` says. -/
def step (s : State) : Host.Outcome State Fault Refusal :=
  match fetch s with
  | .run i t => exec i t
  | .go t => .next t
  | .stop r => .fault r
  | .refuse r => .refused r

/-- The state whose next step runs the instruction of a table word (log 8). -/
def State.withFetchWord (s : State) (nbits w : Nat) : State := placeNext (tableBytes nbits w) s

end Sys2Proof.Machine
end

