-- ==== Sys2Proof/Machine/Macros.lean ====
section
/-! DEFINITION. The host-side macros (`30_encoding.md` R112 to R117): their expansions into commands, and a host that
presents the commands of a macro one after the other and stops at the first error. -/

namespace Sys2Proof.Machine

/-- The ID of a joint of a leg (`20_memory.md` R64): `leg_id*3 + 1` shoulder, `+ 2` knee, `+ 3` ankle. -/
def jointId (leg joint : Nat) : Byte := BitVec.ofNat 8 (leg * 3 + joint)

/-- The three IDs of a leg, in shoulder-knee-ankle order (R112). -/
def legIds (leg : Nat) : List Byte := [jointId leg 1, jointId leg 2, jointId leg 3]

/-- `move-stage-write id, position, duration`. -/
def stageCmd (id : Byte) (position durationMs : Word) : PortCmd := ⟨id, Cmd.moveStageWrite.code, .two position durationMs⟩

/-- `move-write id, position, duration`. -/
def moveCmd (id : Byte) (position durationMs : Word) : PortCmd := ⟨id, Cmd.moveWrite.code, .two position durationMs⟩

/-- `trigger id`. -/
def triggerCmd (id : Byte) : PortCmd := ⟨id, Cmd.trigger.code, .zero⟩

/-- `load-write id, load`. -/
def loadCmd (load : Word) (id : Byte) : PortCmd := ⟨id, Cmd.loadWrite.code, .one load⟩

/-- `stage_position((s, k, a), (ds, dk, da))` with per-joint durations (R112). -/
def stagePositionEach (leg : Nat) (s k a ds dk da : Word) : List PortCmd :=
  [stageCmd (jointId leg 1) s ds, stageCmd (jointId leg 2) k dk, stageCmd (jointId leg 3) a da]

/-- `stage_position((s, k, a), duration_ms)` (R112). -/
def stagePosition (leg : Nat) (s k a durationMs : Word) : List PortCmd :=
  stagePositionEach leg s k a durationMs durationMs durationMs

/-- `trigger_all()` (R113): each joint's own ID. -/
def triggerAll (leg : Nat) : List PortCmd := (legIds leg).map triggerCmd

/-- `set_position((s, k, a), duration_ms)` (R114). -/
def setPosition (leg : Nat) (s k a durationMs : Word) : List PortCmd :=
  [moveCmd (jointId leg 1) s durationMs, moveCmd (jointId leg 2) k durationMs, moveCmd (jointId leg 3) a durationMs]

/-- `unload_all()` (R115). -/
def unloadAll (leg : Nat) : List PortCmd := (legIds leg).map (loadCmd 0)

/-- `load_all()` (R115). -/
def loadAll (leg : Nat) : List PortCmd := (legIds leg).map (loadCmd 1)

/-- The six quantities of `read_diagnostics` (R116): commands 21, 28, 26, 27, 19, 32. -/
def diagnosticCmds : List Cmd :=
  [.rotationLimitRead, .positionRead, .tempRead, .voltageRead, .offsetRead, .loadRead]

/-- The 18 queries of `read_diagnostics()` (R116), joint by joint. -/
def diagnosticsByJoint (leg : Nat) : List PortCmd :=
  (legIds leg).flatMap fun id => diagnosticCmds.map fun c => ⟨id, c.code, .zero⟩

/-- An expansion of `read_diagnostics()`: the 18 queries in any order, which R116 leaves open (U21). -/
def IsDiagnostics (leg : Nat) (cmds : List PortCmd) : Prop := cmds.Perm (diagnosticsByJoint leg)

/-- The six legs (R64), listed by number; no order of them is meant. -/
def legs : List Nat := [0, 1, 2, 3, 4, 5]

/-- A waypoint transition as the engine sees it (R117): `stage_position` for all six legs, in one order, then
`trigger_all` for all six, in one order. A target is a leg's three positions. -/
def waypointIn (staging triggering : List Nat) (target : Nat → Word × Word × Word) (durationMs : Word) : List PortCmd :=
  (staging.flatMap fun leg => stagePosition leg (target leg).1 (target leg).2.1 (target leg).2.2 durationMs)
    ++ triggering.flatMap triggerAll

/-- An expansion of a waypoint transition: R117 says "for all six legs" and leaves both orders of the legs open, so each
is any order of the six (log 22). -/
def IsWaypoint (target : Nat → Word × Word × Word) (durationMs : Word) (cmds : List PortCmd) : Prop :=
  ∃ staging triggering, staging.Perm legs ∧ triggering.Perm legs ∧
    cmds = waypointIn staging triggering target durationMs

/-- The host is blocked while `BUSY = 1` (R12, R25): steps until the engine is idle, at most `n`. -/
def blockWhileBusy : Nat → State → Host.Outcome State Fault Refusal
  | 0, s => .next s
  | n + 1, s =>
    if s.busy then
      match step s with
      | .next t => blockWhileBusy n t
      | .fault r => .fault r
      | .refused r => .refused r
    else .next s

/-- The host calls: it presents one command and is blocked until its result. -/
def callCommand (c : PortCmd) (s : State) : Host.Outcome State Fault Refusal :=
  match step { s with inputs := .present c :: s.inputs } with
  | .next t => blockWhileBusy (enoughTransitions t.timing) t
  | .fault r => .fault r
  | .refused r => .refused r

/-- A macro: the commands one after the other; the first one that does not end `Ok` ends the macro, and the rest are
not issued (section 5 of `30_encoding.md`, R253). -/
def runMacro : List PortCmd → State → Host.Outcome State Fault Refusal
  | [], s => .next s
  | c :: rest, s =>
    match callCommand c s with
    | .next t => if t.resValid && t.resStatus == .ok then runMacro rest t else .next t
    | .fault r => .fault r
    | .refused r => .refused r

end Sys2Proof.Machine
end

