-- ==== Sys2Proof/Safety.lean ====
section
/-! DEFINITION. The terms the statements are made in: the invariant of the machine, what a command finds and leaves,
and runs of steps. -/

namespace Sys2Proof.Machine

/-! ## The invariant -/

/-- A field of a snapshot is unwritten or satisfies a check. -/
def fieldOk {α : Type} (check : α → Bool) : Option α → Bool
  | none => true
  | some a => check a

/-- Two limits are both unwritten, or both written, in range and ordered. -/
def limitsOk (lo hi : Nat) : Option Word → Option Word → Bool
  | none, none => true
  | some low, some high => decide (lo ≤ low.toNat) && decide (low.toNat < high.toNat) && decide (high.toNat ≤ hi)
  | _, _ => false

/-- The ranges of the snapshot's fields (R30). -/
def ServoState.legal (e : ServoState) : Bool :=
  fieldOk (fun v => decide (v.toNat ≤ 1000)) e.targetPos && fieldOk (fun v => decide (v.toNat ≤ 30000)) e.targetDur &&
    limitsOk 0 1000 e.rotLow e.rotHigh && limitsOk 4500 12000 e.voltLow e.voltHigh &&
    fieldOk (fun v => decide (50 ≤ v.toNat) && decide (v.toNat ≤ 100)) e.tempLimit &&
    fieldOk (fun o => decide (-125 ≤ o) && decide (o ≤ 125)) e.offset

/-- The command in progress has passed the checks of phase `CHECK`, and `txbuf` is its frame. -/
structure Checked (s : State) (k : CmdSpec) : Prop where
  known  : specAt s.xCmd = some k
  count  : s.xNp = k.cmd.requestNp
  id     : s.xId ≠ Config.idInvalid
  range  : k.rangeOk s.xP0 s.xP1 = true
  framed : encodeFrame s.xId s.xCmd s.xNp s.xP0 s.xP1 = .ok s.txbuf

/-- The invariant. -/
structure Inv (s : State) : Prop where
  /-- the shadow file is in canonical form -/
  shadowCanonical : shadowWf s.shadow = true
  /-- its fields are in their ranges (R30) -/
  shadowLegal : ∀ e ∈ s.shadow, e.2.legal = true
  /-- between transitions the receive buffer is empty (R28) -/
  rxbufEmpty : s.rxbuf = []
  /-- `RES_STATUS` never holds a codec result (R240) -/
  statusOfCommand : s.resStatus ≠ .decodeEmpty ∧ s.resStatus ≠ .decodeCorrupt
  /-- there is no result while a command is in progress (R29) -/
  busyNoResult : s.busy = true → s.resValid = false
  /-- past `CHECK` the command is checked and framed (R165); past `TX` it is a read command (R166) -/
  txChecked : s.phase = .tx → ∃ k, Checked s k
  settleChecked : s.phase = .settle → ∃ r, Checked s (.read r)
  pollChecked : s.phase = .poll → ∃ r, Checked s (.read r)
  /-- the line direction in the phases of a query (R154, R155) -/
  settleWrites : s.phase = .settle → s.dir = .write
  pollReads : s.phase = .poll → s.dir = .read
  /-- the parameters meet their constraints (R5) -/
  timingOk : s.timing.ok = true
  /-- each attempt so far has lasted at least `T_SETTLE` (R162) -/
  txTime : s.phase = .tx → (∃ r, Checked s (.read r)) →
    s.t0 + s.attempts * s.timing.tSettle ≤ s.clock ∧ (s.attempts = 0 ∨ s.clock < s.t0 + s.timing.tBudget)
  settleTime : s.phase = .settle → 1 ≤ s.attempts ∧ s.t0 + (s.attempts - 1) * s.timing.tSettle ≤ s.clock
  pollTime : s.phase = .poll → 1 ≤ s.attempts ∧ s.t0 + s.attempts * s.timing.tSettle ≤ s.clock
  /-- the number of attempts is at most `T_BUDGET / T_SETTLE`, rounded up (R162) -/
  attemptsBound : s.attempts = 0 ∨ (s.attempts - 1) * s.timing.tSettle < s.timing.tBudget

/-! ## What a command finds and leaves -/

/-- The engine is idle and no reset is coming. -/
structure Ready (s : State) : Prop where
  idle    : s.phase = .idle
  noReset : s.resetIn = none

/-- The state does not say what arrives next. -/
def NoArrival (s : State) : Prop := ∀ bytes rest, s.inputs ≠ .arrive bytes :: rest

/-- The latches hold a command (R20, R25); a latch the count does not cover is not spoken of. -/
structure Latched (t : State) (c : PortCmd) : Prop where
  id    : t.xId = c.id
  code  : t.xCmd = c.code
  np    : t.xNp = c.args.np
  first : ∀ p, c.args.first = some p → t.xP0 = p
  second : ∀ p, c.args.second = some p → t.xP1 = p

/-- The query bookkeeping and the receive side are as before, and so is the machine itself. -/
structure QuerySideKept (s t : State) : Prop where
  t0       : t.t0 = s.t0
  attempts : t.attempts = s.attempts
  pollCnt  : t.pollCnt = s.pollCnt
  outcome  : t.outcome = s.outcome
  rxbuf    : t.rxbuf = s.rxbuf
  rxStore  : t.rxStore = s.rxStore
  inputs   : t.inputs = s.inputs
  waits    : t.waits = s.waits
  timing   : t.timing = s.timing
  lapses   : t.lapses = s.lapses
  resetIn  : t.resetIn = s.resetIn
  resetsAfter : t.resetsAfter = s.resetsAfter

/-- A command was refused before any I/O, with an error (R251): the latches and the result are written, the reply
registers hold no value, everything else is as before. -/
structure Refused (s t : State) (c : PortCmd) (e : Status) : Prop where
  latched   : Latched t c
  phase     : t.phase = .idle
  resValid  : t.resValid = true
  resStatus : t.resStatus = e
  trace     : t.trace = s.trace
  dir       : t.dir = s.dir
  txbuf     : t.txbuf = s.txbuf
  shadow    : t.shadow = s.shadow
  wire      : t.wire = s.wire
  clock     : t.clock = s.clock
  writes    : t.writes = s.writes
  kept      : QuerySideKept s t

/-- A write command has transmitted its frame and ended with a result (R150, R195): one `set_write_mode()` and one
`write`. The shadow file is spoken of apart. -/
structure Transmitted (s t : State) (c : PortCmd) (frame : List Byte) (ok : Bool) (r : Status) : Prop where
  latched   : Latched t c
  phase     : t.phase = .idle
  resValid  : t.resValid = true
  resStatus : t.resStatus = r
  txbuf     : t.txbuf = frame
  dir       : t.dir = .write
  trace     : t.trace = s.trace ++ [.setWriteMode, .write frame ok]
  wire      : t.wire = s.wire ++ (if ok then frame else frame.take (writeAnswer s).sent)
  clock     : t.clock = s.clock + (writeAnswer s).dur
  writes    : t.writes = s.writes.tail
  kept      : QuerySideKept s t

/-- After a write command to `id`, the snapshot of every ID but `id` is as before, and that of `id`, if it is a unicast
ID, is changed by `f` (R31, R32). -/
def ShadowChanged (s t : State) (id : Byte) (f : ServoState → ServoState) : Prop :=
  ∀ j : Nat, shadowGet t.shadow j =
    if j = id.toNat ∧ id.toNat ≤ 253 then f (shadowGet s.shadow j) else shadowGet s.shadow j

/-- The result registers are as before but for `RES_VALID`. -/
structure ResultKept (s t : State) : Prop where
  resStatus : t.resStatus = s.resStatus
  resId     : t.resId = s.resId
  resCmd    : t.resCmd = s.resCmd
  resNp     : t.resNp = s.resNp
  resP0     : t.resP0 = s.resP0
  resP1     : t.resP1 = s.resP1

/-- The external calls of the start of a query, to the turn-around (R153 to R155). -/
def askEvents (s : State) (request : List Byte) : List Event :=
  [.now (clockAnswer s), .setWriteMode, .write request true, .wait s.timing.tSettle, .setReadMode]

/-- A read command has transmitted its request, turned the line around and polls for the reply (R153 to R155). -/
structure Asked (s t : State) (c : PortCmd) (request : List Byte) : Prop where
  latched   : Latched t c
  phase     : t.phase = .poll
  dir       : t.dir = .read
  resValid  : t.resValid = false
  result    : ResultKept s t
  txbuf     : t.txbuf = request
  trace     : t.trace = s.trace ++ askEvents s request
  wire      : t.wire = s.wire ++ request
  clock     : clockAnswer s + (writeAnswer s).dur + s.timing.tSettle ≤ t.clock
  t0        : t.t0 = clockAnswer s
  attempts  : t.attempts = 1
  pollCnt   : t.pollCnt = 0
  outcome   : t.outcome = .timeout
  shadow    : t.shadow = s.shadow
  rxbuf     : t.rxbuf = s.rxbuf
  rxStore   : t.rxStore = s.rxStore
  inputs    : t.inputs = s.inputs
  writes    : t.writes = s.writes.tail
  waits     : t.waits = s.waits.tail
  timing    : t.timing = s.timing
  lapses    : t.lapses = s.lapses.tail
  resetIn   : t.resetIn = s.resetIn
  resetsAfter : t.resetsAfter = s.resetsAfter

/-- The reply registers hold a reply (R29, R158); a register the count does not cover is not spoken of. -/
structure HoldsReply (t : State) (id code : Byte) (args : Args) : Prop where
  phase     : t.phase = .idle
  resValid  : t.resValid = true
  resStatus : t.resStatus = .ok
  resId     : t.resId = id
  resCmd    : t.resCmd = code
  resNp     : t.resNp = args.np
  first     : ∀ p, args.first = some p → t.resP0 = p
  second    : ∀ p, args.second = some p → t.resP1 = p

/-- What a poll that is answered by `bytes` leaves alone: everything but the poll count, the reception and the result. -/
structure PollKept (s t : State) (bytes : List Byte) : Prop where
  xId      : t.xId = s.xId
  xCmd     : t.xCmd = s.xCmd
  xNp      : t.xNp = s.xNp
  xP0      : t.xP0 = s.xP0
  xP1      : t.xP1 = s.xP1
  dir      : t.dir = s.dir
  t0       : t.t0 = s.t0
  attempts : t.attempts = s.attempts
  pollCnt  : t.pollCnt = s.pollCnt + 1
  txbuf    : t.txbuf = s.txbuf
  rxbuf    : t.rxbuf = []
  rxStore  : t.rxStore = []
  shadow   : t.shadow = s.shadow
  wire     : t.wire = s.wire
  inputs   : t.inputs = s.inputs
  writes   : t.writes = s.writes
  timing   : t.timing = s.timing
  resetIn  : t.resetIn = s.resetIn
  resetsAfter : t.resetsAfter = s.resetsAfter
  polled   : ∃ more, t.trace = s.trace ++ .readAvailable bytes :: more

/-- An attempt has ended without a reply after the poll answered by `bytes` (R156): the clock is read; when the budget is
spent the query ends with the attempt's error, else the next attempt is to start. -/
structure AttemptEnded (s t : State) (how : AttemptOutcome) (r : Status) : Prop where
  outcome : t.outcome = how
  spent   : s.timing.tBudget ≤ t.clock - s.t0 → t.phase = .idle ∧ t.resValid = true ∧ t.resStatus = r
  retry   : t.clock - s.t0 < s.timing.tBudget → t.phase = .tx ∧ t.resValid = s.resValid ∧ ResultKept s t

/-! ## The rules of the commands -/

/-- The rule of a write command (R181): the refusals before any I/O, the transmission with the shadow update, and the
failed `write`. -/
def WriteRule (i : Instr) (c : PortCmd) (frame : List Byte) (inRange : Prop) (f : ServoState → ServoState) : Prop :=
  ∀ s : State, Ready s →
    (c.id = 255 ∨ ¬inRange → ∃ t, exec i s = .next t ∧ Refused s t c .outOfRange) ∧
    (c.id ≠ 255 → inRange → (writeAnswer s).ok = true →
      ∃ t, exec i s = .next t ∧ Transmitted s t c frame true .ok ∧ ShadowChanged s t c.id f) ∧
    (c.id ≠ 255 → inRange → (writeAnswer s).ok = false →
      ∃ t, exec i s = .next t ∧ Transmitted s t c frame false .ioFailure ∧ t.shadow = s.shadow)

/-- A read command's first `write` has failed (R151): the query ends with `IoFailure`, and nothing is read. -/
structure AskFailed (s t : State) (c : PortCmd) (request : List Byte) : Prop where
  latched   : Latched t c
  phase     : t.phase = .idle
  resValid  : t.resValid = true
  resStatus : t.resStatus = .ioFailure
  dir       : t.dir = .write
  txbuf     : t.txbuf = request
  trace     : t.trace = s.trace ++ [.now (clockAnswer s), .setWriteMode, .write request false]
  wire      : t.wire = s.wire ++ request.take (writeAnswer s).sent
  clock     : t.clock = clockAnswer s + (writeAnswer s).dur
  t0        : t.t0 = clockAnswer s
  attempts  : t.attempts = 1
  pollCnt   : t.pollCnt = 0
  outcome   : t.outcome = .timeout
  shadow    : t.shadow = s.shadow
  rxbuf     : t.rxbuf = s.rxbuf
  rxStore   : t.rxStore = s.rxStore
  inputs    : t.inputs = s.inputs
  writes    : t.writes = s.writes.tail
  waits     : t.waits = s.waits
  timing    : t.timing = s.timing
  lapses    : t.lapses = s.lapses.tail
  resetIn   : t.resetIn = s.resetIn
  resetsAfter : t.resetsAfter = s.resetsAfter

/-- A read command has been answered at its first poll (R157, R158). -/
structure Answered (s t : State) (c : PortCmd) (request bytes : List Byte) (rest : List Input) : Prop where
  latched   : Latched t c
  dir       : t.dir = .read
  txbuf     : t.txbuf = request
  trace     : t.trace = s.trace ++ askEvents s request ++ [.readAvailable bytes]
  wire      : t.wire = s.wire ++ request
  clock     : clockAnswer s + (writeAnswer s).dur + s.timing.tSettle ≤ t.clock
  t0        : t.t0 = clockAnswer s
  attempts  : t.attempts = 1
  pollCnt   : t.pollCnt = 1
  outcome   : t.outcome = .timeout
  shadow    : t.shadow = s.shadow
  rxbuf     : t.rxbuf = []
  rxStore   : t.rxStore = []
  inputs    : t.inputs = rest
  writes    : t.writes = s.writes.tail
  waits     : t.waits = s.waits.tail
  timing    : t.timing = s.timing
  lapses    : t.lapses = s.lapses.tail
  resetIn   : t.resetIn = s.resetIn
  resetsAfter : t.resetsAfter = s.resetsAfter

/-- The rule of a read command (R211): the refusal before any I/O; the failed `write`; the request and the turn-around;
a reply at the first poll, with its typed result, whatever ID it carries; and the results there are. -/
def ReadRule (i : Instr) (c : PortCmd) (request : List Byte) (replyNp : BitVec 2) (typed : Word → Word → Typed) : Prop :=
  ∀ s : State, Ready s →
    (c.id = 255 → ∃ t, exec i s = .next t ∧ Refused s t c .outOfRange) ∧
    (c.id ≠ 255 → (writeAnswer s).ok = false → ∃ t, exec i s = .next t ∧ AskFailed s t c request) ∧
    (c.id ≠ 255 → (writeAnswer s).ok = true → NoArrival s → ∃ t, exec i s = .next t ∧ Asked s t c request) ∧
    (c.id ≠ 255 → (writeAnswer s).ok = true → 1 ≤ s.timing.nPoll →
      ∀ bytes rest id args, s.inputs = .arrive bytes :: rest → s.rxStore ++ bytes = frameOf id c.code args →
        args.np = replyNp →
        ∃ t, exec i s = .next t ∧ HoldsReply t id c.code args ∧ Answered s t c request (s.rxStore ++ bytes) rest ∧
          typedResult t = some (typed (args.first.getD 0) (args.second.getD 0))) ∧
    (∃ t, exec i s = .next t ∧ t.shadow = s.shadow ∧ (t.resValid = true →
      t.resStatus = .ok ∨ t.resStatus = .ioFailure ∨ t.resStatus = .timeout ∨ t.resStatus = .corrupt ∨
        (t.resStatus = .outOfRange ∧ c.id = 255)))

/-- The rule of a reply row: while no poll waits, the frame stays in the UART (R295); a poll for its command accepts it
when its checksum is right (R158), and ends its attempt as `CORRUPT` when it is wrong (R159). -/
def ReplyRule (i : Instr) (id code : Byte) (args : Args) (chk : Byte) (typed : Typed) : Prop :=
  ∀ s : State,
    (s.phase ≠ .poll → exec i s = .next { s with rxStore := s.rxStore ++ frameWith id code args chk }) ∧
    (s.phase = .poll → s.resetIn = none → s.pollCnt < s.timing.nPoll → s.rxStore = [] → s.xCmd = code →
      (chk = checksum (frameBody id code args) →
        ∃ t, exec i s = .next t ∧ HoldsReply t id code args ∧ typedResult t = some typed ∧
          t.clock = s.clock ∧ t.waits = s.waits ∧ t.lapses = s.lapses ∧ t.outcome = s.outcome ∧
          PollKept s t (frameWith id code args chk)) ∧
      (chk ≠ checksum (frameBody id code args) → s.timing.corruptRetry = true →
        ∃ t, exec i s = .next t ∧ s.clock ≤ t.clock ∧ t.waits = s.waits ∧ AttemptEnded s t .corrupt .corrupt ∧
          PollKept s t (frameWith id code args chk)))

/-! ## Runs -/

/-- A state without what no rule reads: the shadow file, the trace and `DIR` (R33, R34, R24). -/
def blind (s : State) : State := { s with shadow := [], trace := [], dir := .unset }

/-- The `write` events of a trace: the frames handed to the UART. -/
def writesOf : List Event → List (List Byte)
  | [] => []
  | .write bytes _ :: rest => bytes :: writesOf rest
  | _ :: rest => writesOf rest

/-- What `now()` answered in a trace. -/
def clockReads : List Event → List Nat
  | [] => []
  | .now ticks :: rest => ticks :: clockReads rest
  | _ :: rest => clockReads rest

/-- Whether a list of events has a `write` that failed. -/
def hasFailedWrite (l : List Event) : Bool :=
  l.any fun e => match e with
    | .write _ ok => !ok
    | _ => false

/-- Whether an event belongs to query traffic: the calls `SEND_COMMAND` never makes (R150). -/
def Event.ofQuery : Event → Bool
  | .setReadMode => true
  | .readAvailable _ => true
  | .wait _ => true
  | .now _ => true
  | _ => false

/-- `n` steps of the machine, through next states only. -/
inductive Steps : Nat → State → State → Prop where
  | zero (s : State) : Steps 0 s s
  | succ {n : Nat} {s t u : State} (first : step s = .next t) (rest : Steps n t u) : Steps (n + 1) s u

/-- The host calls the commands one after the other, and each of them ends `Ok` (R253). -/
inductive RunsOk : List PortCmd → State → State → Prop where
  | nil (s : State) : RunsOk [] s s
  | cons {c : PortCmd} {rest : List PortCmd} {s t u : State} (first : callCommand c s = .next t)
      (valid : t.resValid = true) (ok : t.resStatus = .ok) (more : RunsOk rest t u) : RunsOk (c :: rest) s u

end Sys2Proof.Machine
end

