-- ==== Sys2Proof/Certificates/Slice0/Obligations.lean ====
section
/-! DEFINITION. The statements for the provers. Each docstring names the rules of the spec it rests on. The terms they
are made in stand in `Sys2Proof/Safety.lean`. -/

open Sys2Proof Sys2Proof.Machine

/-! ## The frame codec -/

/-- R131: the checksum is the complement of the byte sum modulo 256, of the empty region 255; it does not see the order
of the bytes, and any change of one byte changes it. -/
def Obligations.ChecksumComplementsSum : Prop :=
  (∀ b : List Byte, (checksum b).toNat = 255 - byteSum b % 256) ∧
  checksum [] = 0xFF ∧
  (∀ a b : List Byte, a.Perm b → checksum a = checksum b) ∧
  (∀ (b : List Byte) (i : Nat) (x : Byte), i < b.length → x ≠ byteAt b i → checksum (b.set i x) ≠ checksum b)

/-- R132: `ENCODE` refuses an invalid code and any count but the code's, and otherwise builds the frame of that count,
whatever the ID and the patterns are. -/
def Obligations.EncodeBuildsFrame : Prop :=
  ∀ (id code : Byte) (p0 p1 : Word),
    (Cmd.ofCode code = none → ∀ np, encodeFrame id code np p0 p1 = .error .invalidParameterCount) ∧
    (∀ c, Cmd.ofCode code = some c →
      (∀ np, np ≠ c.requestNp → encodeFrame id code np p0 p1 = .error .invalidParameterCount) ∧
      (c.requestNp = 0 → encodeFrame id code 0 p0 p1 = .ok [0x55, 0x55, id, 3, code, checksum [id, 3, code]]) ∧
      (c.requestNp = 1 → encodeFrame id code 1 p0 p1 =
        .ok [0x55, 0x55, id, 5, code, lo8 p0, hi8 p0, checksum [id, 5, code, lo8 p0, hi8 p0]]) ∧
      (c.requestNp = 2 → encodeFrame id code 2 p0 p1 =
        .ok [0x55, 0x55, id, 7, code, lo8 p0, hi8 p0, lo8 p1, hi8 p1,
          checksum [id, 7, code, lo8 p0, hi8 p0, lo8 p1, hi8 p1]]) ∧
      (c.requestNp = 0 ∨ c.requestNp = 1 ∨ c.requestNp = 2))

/-- R133: the shape of every frame `ENCODE` returns. -/
def Obligations.EncodedFrameShape : Prop :=
  ∀ (id code : Byte) (np : BitVec 2) (p0 p1 : Word) (f : List Byte), encodeFrame id code np p0 p1 = .ok f →
    byteAt f 0 = 0x55 ∧ byteAt f 1 = 0x55 ∧
    (byteAt f 3).toNat = f.length - 3 ∧
    ((byteAt f 3).toNat = 3 ∨ (byteAt f 3).toNat = 5 ∨ (byteAt f 3).toNat = 7) ∧
    (Cmd.ofCode (byteAt f 4)).isSome = true ∧
    byteAt f (f.length - 1) = checksum (summedRegion f) ∧
    ∃ r, decodeFrame f (byteAt f 4) = .ok r

/-- R135: `DECODE` says `Empty` exactly below six bytes, accepts under a code exactly the frames of that code, if it is a
catalog code, with the fields of the frame, and calls every other buffer `Corrupt`. -/
def Obligations.DecodeAcceptsExactlyFrames : Prop :=
  ∀ (buf : List Byte) (expected : Byte),
    (decodeFrame buf expected = .empty ↔ buf.length < 6) ∧
    (∀ r, decodeFrame buf expected = .ok r ↔
      r.code = expected ∧ (Cmd.ofCode expected).isSome = true ∧ buf = frameOf r.id expected r.args) ∧
    (decodeFrame buf expected = .corrupt ↔
      6 ≤ buf.length ∧ ∀ id args, (Cmd.ofCode expected).isSome = true → buf ≠ frameOf id expected args)

/-- R137: the codec's laws. Round trip; detection of every single changed byte between header and checksum; `Empty` and
the other verdicts divided by the length. -/
def Obligations.CodecLaws : Prop :=
  (∀ (c : Cmd) (id : Byte) (p0 p1 : Word), ∃ f args,
    encodeFrame id c.code c.requestNp p0 p1 = .ok f ∧ decodeFrame f c.code = .ok ⟨id, c.code, args⟩ ∧
    args.np = c.requestNp ∧ (∀ p, args.first = some p → p = p0) ∧ (∀ p, args.second = some p → p = p1)) ∧
  (∀ (f : List Byte) (expected : Byte) (r : Reply) (i : Nat) (x : Byte), decodeFrame f expected = .ok r →
    2 ≤ i → i ≤ f.length - 2 → x ≠ byteAt f i → decodeFrame (f.set i x) expected = .corrupt) ∧
  (∀ (buf : List Byte) (expected : Byte),
    (6 ≤ buf.length → decodeFrame buf expected ≠ .empty) ∧
    (buf.length < 6 → decodeFrame buf expected ≠ .corrupt ∧ ∀ r, decodeFrame buf expected ≠ .ok r))

/-- R103: the reserved and invalid codes, and how each of the three places treats them. -/
def Obligations.ReservedCodesRefused : Prop :=
  (∀ code : Byte, Cmd.ofCode code = none ↔
    code.toNat ∈ [3, 4, 5, 6, 9, 10, 13, 14, 15, 16] ∨ code.toNat = 0 ∨ 37 ≤ code.toNat) ∧
  (∀ code : Byte, Cmd.ofCode code = none →
    (∀ id np p0 p1, encodeFrame id code np p0 p1 = .error .invalidParameterCount) ∧
    (∀ (buf : List Byte) expected, 6 ≤ buf.length → byteAt buf 4 = code → decodeFrame buf expected = .corrupt) ∧
    (∀ (s : State) id args, Ready s →
      ∃ t, step { s with inputs := .present ⟨id, code, args⟩ :: s.inputs } = .next t ∧
        Refused s t ⟨id, code, args⟩ .invalidParameterCount))

/-! ## Instructions and their encoding -/

/-- Decoding the bytes of an instruction gives it back, with every field at every value (`30_encoding.md`, sections 1 to
3). -/
def Obligations.DecodeOfEncode : Prop := ∀ i : Instr, decode (encode i) = .ok i

/-- Some words written out from the frame formats (R91), the last of them numbered as the opcode table numbers words
(R107): Scenario A, a request of each format, a reply. -/
def Obligations.WrittenWordsDecode : Prop :=
  decode [0x55, 0x55, 0x05, 0x07, 0x01, 0x00, 0x02, 0xE8, 0x03, 0x05] = .ok (.moveWrite 5 512 1000) ∧
  decode [0x55, 0x55, 0x09, 0x03, 0x1C, 0xD7] = .ok (.positionRead 9) ∧
  decode [0x55, 0x55, 0x07, 0x05, 0x11, 0x83, 0xFF, 0x60] = .ok (.offsetAdjust 7 0xFF83) ∧
  decode [0x55, 0x55, 0x04, 0x07, 0x15, 0x64, 0x00, 0x84, 0x03, 0xF4] = .ok (.rotationLimitReadReply 4 100 900 0xF4) ∧
  decodeTableWord 48 0x5555FE030BF3 = some (.trigger 254)

/-- A request is what its command on the port stands for (R110), no other command stands for it, and the commands that
stand for none are those with an invalid code or another count than the code's. -/
def Obligations.CommandPortNamesRequests : Prop :=
  (∀ i : Instr, i.isReply = false → decodeCommand i.portCmd = some i) ∧
  (∀ (c : PortCmd) (i : Instr), decodeCommand c = some i → i.portCmd = c ∧ i.isReply = false) ∧
  (∀ c : PortCmd, decodeCommand c = none ↔ ∀ k, Cmd.ofCode c.code = some k → c.args.np ≠ k.requestNp)

/-- The documented ranges of `WellFormed` are what the machine checks (R6, R165): an ill-formed request is refused with
`OutOfRange`, a well-formed one is transmitted. -/
def Obligations.WellFormedRequestsAreSent : Prop :=
  ∀ (i : Instr) (s : State), i.isReply = false → Ready s →
    (i.wf = false → ∃ t, exec i s = .next t ∧ Refused s t i.portCmd .outOfRange) ∧
    (i.wf = true → ∃ t, exec i s = .next t ∧ t.txbuf = encode i ∧
      ∃ more, t.trace = s.trace ++ more ∧ Event.write (encode i) (writeAnswer s).ok ∈ more)

/-! ## Reset -/

/-- The values of the reset table (R37) that the spec gives. -/
def Obligations.ResetGivesTableValues : Prop :=
  State.reset.phase = .idle ∧ State.reset.busy = false ∧ State.reset.dir = .unset ∧ State.reset.rxbuf = [] ∧
  State.reset.resValid = false ∧ (∀ id, shadowGet State.reset.shadow id = ServoState.unwritten) ∧
  State.reset.trace = []

/-- The reset input, at any moment, in every phase (R280 to R282): the values the table gives, no result, no external
call, and the outside world, the UART's receive store among it, as it was, but that some first bytes of a frame whose
transmission it cuts short may have reached the line. That the clock field stands, how many bytes reach the line, and that
the countdown to the next reset starts here, is the model's choice (log 9). -/
def Obligations.ResetInputResets : Prop :=
  ∀ s : State, s.resetIn = some 0 → ∃ t, step s = .next t ∧
    t.phase = .idle ∧ t.busy = false ∧ t.dir = .unset ∧ t.rxbuf = [] ∧ t.resValid = false ∧
    (∀ id, shadowGet t.shadow id = ServoState.unwritten) ∧ t.trace = [] ∧
    t.rxStore = s.rxStore ∧ t.clock = s.clock ∧ t.inputs = s.inputs ∧ t.waits = s.waits ∧ t.lapses = s.lapses ∧
    t.timing = s.timing ∧ t.resetIn = s.resetsAfter.head? ∧ t.resetsAfter = s.resetsAfter.tail ∧
    (s.phase ≠ .tx → t.wire = s.wire ∧ t.writes = s.writes) ∧
    ∃ n, t.wire = s.wire ++ s.txbuf.take n

/-! ## Steps and acceptance -/

/-- A step of an idle engine runs the instruction on the command port, in the state from which the command is taken
(the model's convention, logs 1 and 8). -/
def Obligations.StepRunsPresentedCommand : Prop :=
  ∀ (s : State) (c : PortCmd) (rest : List Input) (i : Instr), s.phase = .idle → s.resetIn ≠ some 0 →
    s.inputs = .present c :: rest → decodeCommand c = some i → step s = exec i { s with inputs := rest }

/-- A step of an idle or polling engine runs the reply row that arrives; other bytes go to the receive side as they are
(the model's convention, log 2). -/
def Obligations.StepRunsArrivedFrame : Prop :=
  ∀ (s : State) (bytes : List Byte) (rest : List Input), s.phase = .idle ∨ s.phase = .poll → s.resetIn ≠ some 0 →
    s.inputs = .arrive bytes :: rest →
    (∀ i, decode bytes = .ok i → i.isReply = true → step s = exec i { s with inputs := rest }) ∧
    (s.phase = .idle → (∀ i, decode bytes = .ok i → i.isReply = false) →
      step s = .next { s with inputs := rest, rxStore := s.rxStore ++ bytes })

/-- The next step runs the instruction that a table word has placed (the model's convention, log 8). -/
def Obligations.StepRunsPlacedWord : Prop :=
  ∀ (s : State) (nbits w : Nat) (i : Instr), decodeTableWord nbits w = some i →
    ∃ p, (p = s.phase ∨ p = .idle) ∧ (s.phase = .idle → p = .idle) ∧
      step (s.withFetchWord nbits w) = exec i { s with phase := p, resetIn := none }

/-- R25: an idle engine accepts a command: the latches hold it, and no result is valid until it ends; a busy engine
accepts none: as an instruction it changes nothing, and on the port it waits while latches and command go on (the
last is the model's choice, log 12). -/
def Obligations.BusyRefusesCommands : Prop :=
  (∀ (c : PortCmd) (s : State), s.phase = .idle →
    Latched (accept c s) c ∧ (accept c s).resValid = false ∧ (accept c s).phase = .check) ∧
  (∀ (i : Instr) (s : State), i.isReply = false → s.busy = true → exec i s = .next s) ∧
  (∀ (c : PortCmd) (rest : List Input) (s : State), s.busy = true → s.resetIn ≠ some 0 →
    s.inputs = .present c :: rest → ∃ t, step s = .next t ∧ t.inputs = s.inputs ∧
      t.xId = s.xId ∧ t.xCmd = s.xCmd ∧ t.xNp = s.xNp ∧ t.xP0 = s.xP0 ∧ t.xP1 = s.xP1)

/-- An idle engine with nothing to do waits (R280); that a step is made of it is the model's choice (log 23). -/
def Obligations.IdleEngineWaits : Prop :=
  ∀ s : State, Ready s → s.inputs = [] → step s = .next s

/-! ## Errors -/

/-- R251: taking an error records its code, makes the result valid and the engine idle, and changes nothing else; the
reply registers hold no value, so nothing is said of them. -/
def Obligations.ErrorRecordsOnlyItsCode : Prop :=
  ∀ (e : Status) (s : State), ∃ a b c d f n,
    raise e s =
      { s with resStatus := e, resValid := true, phase := .idle, resId := a, resCmd := b, resNp := c, resP0 := d,
               resP1 := f, draws := n }

/-- R241: the causes of `OutOfRange`, each before any I/O, and no others of a read command. -/
def Obligations.OutOfRangeCauses : Prop :=
  ∀ s : State, Ready s →
    (∀ i : Instr, i.isReply = false → i.fields.id = 255 →
      ∃ t, exec i s = .next t ∧ Refused s t i.portCmd .outOfRange) ∧
    (∀ id pos dur, 1000 < pos.toNat ∨ 30000 < dur.toNat →
      (∃ t, exec (.moveWrite id pos dur) s = .next t ∧ Refused s t ⟨id, 1, .two pos dur⟩ .outOfRange) ∧
      (∃ t, exec (.moveStageWrite id pos dur) s = .next t ∧ Refused s t ⟨id, 7, .two pos dur⟩ .outOfRange)) ∧
    (∀ id offset, offset.toInt < -125 ∨ 125 < offset.toInt →
      ∃ t, exec (.offsetAdjust id offset) s = .next t ∧ Refused s t ⟨id, 17, .one offset⟩ .outOfRange) ∧
    (∀ id low high, ¬(low.toNat < high.toNat ∧ high.toNat ≤ 1000) →
      ∃ t, exec (.rotationLimitWrite id low high) s = .next t ∧ Refused s t ⟨id, 20, .two low high⟩ .outOfRange) ∧
    (∀ id low high, ¬(4500 ≤ low.toNat ∧ low.toNat < high.toNat ∧ high.toNat ≤ 12000) →
      ∃ t, exec (.voltageLimitWrite id low high) s = .next t ∧ Refused s t ⟨id, 22, .two low high⟩ .outOfRange) ∧
    (∀ id limit, limit.toNat < 50 ∨ 100 < limit.toNat →
      ∃ t, exec (.tempLimitWrite id limit) s = .next t ∧ Refused s t ⟨id, 24, .one limit⟩ .outOfRange) ∧
    (∀ id load, 1 < load.toNat →
      ∃ t, exec (.loadWrite id load) s = .next t ∧ Refused s t ⟨id, 31, .one load⟩ .outOfRange) ∧
    (∀ i : Instr, i.isReply = false → i.fields.cmd.kind = .read → i.fields.id ≠ 255 →
      ∃ t, exec i s = .next t ∧ (t.resValid = true → t.resStatus ≠ .outOfRange))

/-- R242: an invalid code or a wrong count is refused with `InvalidParameterCount` before any I/O, by `ENCODE` and on the
port; a command built from the table never is. -/
def Obligations.InvalidCountCauses : Prop :=
  (∀ id code np p0 p1 e, encodeFrame id code np p0 p1 = .error e → e = .invalidParameterCount) ∧
  (∀ id code np p0 p1, (∀ c, Cmd.ofCode code = some c → np ≠ c.requestNp) →
    encodeFrame id code np p0 p1 = .error .invalidParameterCount) ∧
  (∀ (c : PortCmd) (s : State), Ready s → (∀ k, Cmd.ofCode c.code = some k → c.args.np ≠ k.requestNp) →
    ∃ t, step { s with inputs := .present c :: s.inputs } = .next t ∧ Refused s t c .invalidParameterCount) ∧
  (∀ (i : Instr) (s : State), i.isReply = false → Ready s →
    ∃ t, exec i s = .next t ∧ (t.resValid = true → t.resStatus ≠ .invalidParameterCount))

/-- R240: the numeric codes of the results. R24: those of `DIR`. R35: the status the host reads, with `BUSY` 1 exactly
when the engine is not idle; that the code is answered while `RES_VALID = 0` too is the model's choice (log 24). -/
def Obligations.StatusCodes : Prop :=
  Status.ok.code = 0 ∧ Status.outOfRange.code = 1 ∧ Status.invalidParameterCount.code = 2 ∧
  Status.decodeEmpty.code = 3 ∧ Status.decodeCorrupt.code = 4 ∧ Status.ioFailure.code = 5 ∧
  Status.timeout.code = 6 ∧ Status.corrupt.code = 7 ∧
  Dir.unset.code = 0 ∧ Dir.write.code = 1 ∧ Dir.read.code = 2 ∧
  ∀ s : State, readStatus s =
    ⟨if s.phase = .idle then 0 else 1, s.dir.code, if s.resValid = true then 1 else 0, s.resStatus.code⟩

/-! ## Write commands -/

/-- R182, R183: the two moves. -/
def Obligations.MoveWriteRules : Prop :=
  ∀ (id : Byte) (pos dur : Word),
    WriteRule (.moveWrite id pos dur) ⟨id, 1, .two pos dur⟩
      [0x55, 0x55, id, 7, 1, lo8 pos, hi8 pos, lo8 dur, hi8 dur,
        checksum [id, 7, 1, lo8 pos, hi8 pos, lo8 dur, hi8 dur]]
      (pos.toNat ≤ 1000 ∧ dur.toNat ≤ 30000)
      (fun e => { e with targetPos := some pos, targetDur := some dur, targetStaged := some false }) ∧
    WriteRule (.moveStageWrite id pos dur) ⟨id, 7, .two pos dur⟩
      [0x55, 0x55, id, 7, 7, lo8 pos, hi8 pos, lo8 dur, hi8 dur,
        checksum [id, 7, 7, lo8 pos, hi8 pos, lo8 dur, hi8 dur]]
      (pos.toNat ≤ 1000 ∧ dur.toNat ≤ 30000)
      (fun e => { e with targetPos := some pos, targetDur := some dur, targetStaged := some true })

/-- R184, R185, R187: trigger, stop and offset-commit, which have no parameter, no range and no shadow update. -/
def Obligations.PlainWriteRules : Prop :=
  ∀ id : Byte,
    WriteRule (.trigger id) ⟨id, 11, .zero⟩ [0x55, 0x55, id, 3, 11, checksum [id, 3, 11]] True (fun e => e) ∧
    WriteRule (.stop id) ⟨id, 12, .zero⟩ [0x55, 0x55, id, 3, 12, checksum [id, 3, 12]] True (fun e => e) ∧
    WriteRule (.offsetCommit id) ⟨id, 18, .zero⟩ [0x55, 0x55, id, 3, 18, checksum [id, 3, 18]] True (fun e => e)

/-- R186: offset-adjust. -/
def Obligations.OffsetAdjustRule : Prop :=
  ∀ (id : Byte) (offset : Word),
    WriteRule (.offsetAdjust id offset) ⟨id, 17, .one offset⟩
      [0x55, 0x55, id, 5, 17, lo8 offset, hi8 offset, checksum [id, 5, 17, lo8 offset, hi8 offset]]
      (-125 ≤ offset.toInt ∧ offset.toInt ≤ 125)
      (fun e => { e with offset := some offset.toInt })

/-- R188, R189, R190: the limit writes. -/
def Obligations.LimitWriteRules : Prop :=
  ∀ (id : Byte) (low high limit : Word),
    WriteRule (.rotationLimitWrite id low high) ⟨id, 20, .two low high⟩
      [0x55, 0x55, id, 7, 20, lo8 low, hi8 low, lo8 high, hi8 high,
        checksum [id, 7, 20, lo8 low, hi8 low, lo8 high, hi8 high]]
      (low.toNat < high.toNat ∧ high.toNat ≤ 1000)
      (fun e => { e with rotLow := some low, rotHigh := some high }) ∧
    WriteRule (.voltageLimitWrite id low high) ⟨id, 22, .two low high⟩
      [0x55, 0x55, id, 7, 22, lo8 low, hi8 low, lo8 high, hi8 high,
        checksum [id, 7, 22, lo8 low, hi8 low, lo8 high, hi8 high]]
      (4500 ≤ low.toNat ∧ low.toNat < high.toNat ∧ high.toNat ≤ 12000)
      (fun e => { e with voltLow := some low, voltHigh := some high }) ∧
    WriteRule (.tempLimitWrite id limit) ⟨id, 24, .one limit⟩
      [0x55, 0x55, id, 5, 24, lo8 limit, hi8 limit, checksum [id, 5, 24, lo8 limit, hi8 limit]]
      (50 ≤ limit.toNat ∧ limit.toNat ≤ 100)
      (fun e => { e with tempLimit := some limit })

/-- R191 to R194: the mode writes. -/
def Obligations.ModeWriteRules : Prop :=
  ∀ (id : Byte) (mode speed v : Word),
    WriteRule (.motorModeWrite id mode speed) ⟨id, 29, .two mode speed⟩
      [0x55, 0x55, id, 7, 29, lo8 mode, hi8 mode, lo8 speed, hi8 speed,
        checksum [id, 7, 29, lo8 mode, hi8 mode, lo8 speed, hi8 speed]]
      True (fun e => e) ∧
    WriteRule (.loadWrite id v) ⟨id, 31, .one v⟩
      [0x55, 0x55, id, 5, 31, lo8 v, hi8 v, checksum [id, 5, 31, lo8 v, hi8 v]]
      (v.toNat ≤ 1) (fun e => { e with load := some (decide (v.toNat = 1)) }) ∧
    WriteRule (.ledModeWrite id v) ⟨id, 33, .one v⟩
      [0x55, 0x55, id, 5, 33, lo8 v, hi8 v, checksum [id, 5, 33, lo8 v, hi8 v]]
      True (fun e => { e with ledMode := some v }) ∧
    WriteRule (.ledFaultWrite id v) ⟨id, 35, .one v⟩
      [0x55, 0x55, id, 5, 35, lo8 v, hi8 v, checksum [id, 5, 35, lo8 v, hi8 v]]
      True (fun e => { e with ledFaultMask := some v })

/-- R195: a write command ends; with `Ok` or `IoFailure` its calls are one `set_write_mode()` and one `write` of one
frame, and its duration is that of the `write`; with an error of phase `CHECK` it has made no call; never a call of
query traffic. -/
def Obligations.WriteCommandsMakeOneCall : Prop :=
  ∀ (c : PortCmd) (s : State), Ready s → (∀ k, Cmd.ofCode c.code = some k → k.kind = .write) →
    ∃ t more, step { s with inputs := .present c :: s.inputs } = .next t ∧ t.phase = .idle ∧ t.resValid = true ∧
      t.trace = s.trace ++ more ∧ (∀ e ∈ more, e.ofQuery = false) ∧
      ((t.resStatus = .ok ∨ t.resStatus = .ioFailure) ∧
          more = [.setWriteMode, .write (frameOf c.id c.code c.args) (writeAnswer s).ok] ∧
          t.clock = s.clock + (writeAnswer s).dur ∨
        (t.resStatus = .outOfRange ∨ t.resStatus = .invalidParameterCount) ∧ more = [] ∧ t.clock = s.clock)

/-! ## Read commands and replies

The five statements of this kind follow R211 to R224, and R157 to R159 for the replies. These clauses are the model's
choices and not those rules': a reply row is an instruction, the reception of its frame (log 2); the one step that takes
a command rests before a poll that the state does not answer (log 1); the clock field stands in a poll, because time
outside `write` and `wait` is told by the next `now()` (log 10); the query bookkeeping is kept after the end (log 11). -/

/-- The motion reads (R212, R213) and their replies; rests on logs 1, 2, 10, 11. -/
def Obligations.MotionReadRules : Prop :=
  ∀ (id : Byte) (pos dur : Word) (chk : Byte),
    ReadRule (.moveRead id) ⟨id, 2, .zero⟩ [0x55, 0x55, id, 3, 2, checksum [id, 3, 2]] 2
      (fun p0 p1 => .unsignedPair p0.toNat p1.toNat) ∧
    ReadRule (.moveStageRead id) ⟨id, 8, .zero⟩ [0x55, 0x55, id, 3, 8, checksum [id, 3, 8]] 2
      (fun p0 p1 => .unsignedPair p0.toNat p1.toNat) ∧
    ReplyRule (.moveReadReply id pos dur chk) id 2 (.two pos dur) chk (.unsignedPair pos.toNat dur.toNat) ∧
    ReplyRule (.moveStageReadReply id pos dur chk) id 8 (.two pos dur) chk (.unsignedPair pos.toNat dur.toNat)

/-- offset-read (R214) and its reply; the offset is signed; rests on logs 1, 2, 10, 11. -/
def Obligations.OffsetReadRules : Prop :=
  ∀ (id : Byte) (offset : Word) (chk : Byte),
    ReadRule (.offsetRead id) ⟨id, 19, .zero⟩ [0x55, 0x55, id, 3, 19, checksum [id, 3, 19]] 1
      (fun p0 _ => .signed p0.toInt) ∧
    ReplyRule (.offsetReadReply id offset chk) id 19 (.one offset) chk (.signed offset.toInt)

/-- The limit reads (R215, R216, R217) and their replies; rests on logs 1, 2, 10, 11. -/
def Obligations.LimitReadRules : Prop :=
  ∀ (id : Byte) (low high limit : Word) (chk : Byte),
    ReadRule (.rotationLimitRead id) ⟨id, 21, .zero⟩ [0x55, 0x55, id, 3, 21, checksum [id, 3, 21]] 2
      (fun p0 p1 => .unsignedPair p0.toNat p1.toNat) ∧
    ReadRule (.voltageLimitRead id) ⟨id, 23, .zero⟩ [0x55, 0x55, id, 3, 23, checksum [id, 3, 23]] 2
      (fun p0 p1 => .unsignedPair p0.toNat p1.toNat) ∧
    ReadRule (.tempLimitRead id) ⟨id, 25, .zero⟩ [0x55, 0x55, id, 3, 25, checksum [id, 3, 25]] 1
      (fun p0 _ => .unsigned p0.toNat) ∧
    ReplyRule (.rotationLimitReadReply id low high chk) id 21 (.two low high) chk
      (.unsignedPair low.toNat high.toNat) ∧
    ReplyRule (.voltageLimitReadReply id low high chk) id 23 (.two low high) chk
      (.unsignedPair low.toNat high.toNat) ∧
    ReplyRule (.tempLimitReadReply id limit chk) id 25 (.one limit) chk (.unsigned limit.toNat)

/-- The telemetry reads (R218, R219, R220) and their replies, all unsigned; rests on logs 1, 2, 10, 11. -/
def Obligations.TelemetryReadRules : Prop :=
  ∀ (id : Byte) (v : Word) (chk : Byte),
    ReadRule (.tempRead id) ⟨id, 26, .zero⟩ [0x55, 0x55, id, 3, 26, checksum [id, 3, 26]] 1
      (fun p0 _ => .unsigned p0.toNat) ∧
    ReadRule (.voltageRead id) ⟨id, 27, .zero⟩ [0x55, 0x55, id, 3, 27, checksum [id, 3, 27]] 1
      (fun p0 _ => .unsigned p0.toNat) ∧
    ReadRule (.positionRead id) ⟨id, 28, .zero⟩ [0x55, 0x55, id, 3, 28, checksum [id, 3, 28]] 1
      (fun p0 _ => .unsigned p0.toNat) ∧
    ReplyRule (.tempReadReply id v chk) id 26 (.one v) chk (.unsigned v.toNat) ∧
    ReplyRule (.voltageReadReply id v chk) id 27 (.one v) chk (.unsigned v.toNat) ∧
    ReplyRule (.positionReadReply id v chk) id 28 (.one v) chk (.unsigned v.toNat)

/-- The mode reads (R221 to R224) and their replies; the speed is signed, any non-zero load is loaded; rests on logs 1,
2, 10, 11. -/
def Obligations.ModeReadRules : Prop :=
  ∀ (id : Byte) (mode speed v : Word) (chk : Byte),
    ReadRule (.motorModeRead id) ⟨id, 30, .zero⟩ [0x55, 0x55, id, 3, 30, checksum [id, 3, 30]] 2
      (fun p0 p1 => .unsignedSigned p0.toNat p1.toInt) ∧
    ReadRule (.loadRead id) ⟨id, 32, .zero⟩ [0x55, 0x55, id, 3, 32, checksum [id, 3, 32]] 1
      (fun p0 _ => .truth (decide (p0.toNat ≠ 0))) ∧
    ReadRule (.ledModeRead id) ⟨id, 34, .zero⟩ [0x55, 0x55, id, 3, 34, checksum [id, 3, 34]] 1
      (fun p0 _ => .unsigned p0.toNat) ∧
    ReadRule (.ledFaultRead id) ⟨id, 36, .zero⟩ [0x55, 0x55, id, 3, 36, checksum [id, 3, 36]] 1
      (fun p0 _ => .unsigned p0.toNat) ∧
    ReplyRule (.motorModeReadReply id mode speed chk) id 30 (.two mode speed) chk
      (.unsignedSigned mode.toNat speed.toInt) ∧
    ReplyRule (.loadReadReply id v chk) id 32 (.one v) chk (.truth (decide (v.toNat ≠ 0))) ∧
    ReplyRule (.ledModeReadReply id v chk) id 34 (.one v) chk (.unsigned v.toNat) ∧
    ReplyRule (.ledFaultReadReply id v chk) id 36 (.one v) chk (.unsigned v.toNat)

/-- R225: a read command never changes the shadow file; its calls begin with the clock, the direction and the request,
every `write` is of that request, and there are `attempts` of them; it ends `Ok` only on a poll that returned one frame
with its code and `REPLY_NP` parameters; a refused one makes no call. -/
def Obligations.ReadCommandLaws : Prop :=
  ∀ (s : State), Ready s →
    (∀ (i : Instr), i.isReply = false → i.fields.cmd.kind = .read →
      ∃ t more, exec i s = .next t ∧ t.shadow = s.shadow ∧ t.trace = s.trace ++ more ∧
        (i.fields.id = 255 → more = []) ∧
        (i.fields.id ≠ 255 →
          (∃ later, more = .now (clockAnswer s) :: .setWriteMode :: .write (encode i) (writeAnswer s).ok :: later) ∧
          (∀ f ∈ writesOf more, f = encode i) ∧ (writesOf more).length = t.attempts) ∧
        (t.resValid = true → t.resStatus = .ok → ∃ id args, some args.np = replyNpOf (some (specOf i.fields.cmd)) ∧
          more.getLast? = some (.readAvailable (frameOf id i.fields.cmd.code args)))) ∧
    (∀ (c : PortCmd) (k : Cmd), Cmd.ofCode c.code = some k → k.kind = .read → c.args.np ≠ 0 →
      ∃ t, step { s with inputs := .present c :: s.inputs } = .next t ∧ t.trace = s.trace ∧
        t.resStatus = .invalidParameterCount ∧ t.shadow = s.shadow)

/-- R157, R160: a poll that finds no byte waits `T_POLL`; when it was not the last of the attempt the engine polls on, else
the attempt ends with `TIMEOUT` as its outcome. -/
def Obligations.EmptyPollWaits : Prop :=
  ∀ (s : State) (rest : List Input), s.phase = .poll → s.resetIn = none → s.pollCnt < s.timing.nPoll →
    s.rxStore = [] → s.inputs = .arrive [] :: rest → s.outcome = .timeout →
    ∃ t, step s = .next t ∧ s.clock + s.timing.tPoll ≤ t.clock ∧ PollKept { s with inputs := rest } t [] ∧
      (s.pollCnt + 1 < s.timing.nPoll → t.phase = .poll ∧ t.outcome = .timeout ∧
        t.trace = s.trace ++ [.readAvailable [], .wait s.timing.tPoll]) ∧
      (s.timing.nPoll ≤ s.pollCnt + 1 → AttemptEnded s t .timeout .timeout ∧
        t.trace = s.trace ++ [.readAvailable [], .wait s.timing.tPoll, .now t.clock])

/-- R159: bytes that are not accepted, of any length above zero and of any content, end the attempt as `CORRUPT` at once:
there is no wait and no further poll, and the clock is read for the budget; with `CORRUPT_RETRY = false` the query ends
at once with `Corrupt`. -/
def Obligations.RejectedBytesEndAttempt : Prop :=
  ∀ (s : State) (bytes : List Byte) (rest : List Input), s.phase = .poll → s.resetIn = none →
    s.pollCnt < s.timing.nPoll → s.inputs = .arrive bytes :: rest → s.rxStore ++ bytes ≠ [] →
    (∀ k id args, specAt s.xCmd = some k → s.rxStore ++ bytes = frameOf id s.xCmd args →
      replyNpOf (some k) ≠ some args.np) →
    ∃ t, step s = .next t ∧ s.clock ≤ t.clock ∧ t.waits = s.waits ∧
      PollKept { s with inputs := rest } t (s.rxStore ++ bytes) ∧
      (s.timing.corruptRetry = true → AttemptEnded s t .corrupt .corrupt ∧
        t.trace = s.trace ++ [.readAvailable (s.rxStore ++ bytes), .now t.clock]) ∧
      (s.timing.corruptRetry = false → t.phase = .idle ∧ t.resValid = true ∧ t.resStatus = .corrupt ∧
        t.trace = s.trace ++ [.readAvailable (s.rxStore ++ bytes)])

/-- R296: the engine's own request, received back by a poll, alone, never completes the query. -/
def Obligations.EchoIsRejected : Prop :=
  ∀ (s : State) (rest : List Input), Inv s → s.phase = .poll → s.resetIn = none → s.pollCnt < s.timing.nPoll →
    s.rxStore = [] → s.inputs = .arrive s.txbuf :: rest → s.timing.corruptRetry = true →
    ∃ t, step s = .next t ∧ AttemptEnded s t .corrupt .corrupt

/-- R154, R151: an attempt transmits the same six bytes again and goes to the settle wait; a failed `write` ends the query
with `IoFailure` and there is no second call of `write`. -/
def Obligations.RetryTransmitsAgain : Prop :=
  ∀ s : State, Inv s → s.phase = .tx → s.resetIn = none → (∃ r, Checked s (.read r)) →
    ∃ t, step s = .next t ∧ t.attempts = s.attempts + 1 ∧ t.pollCnt = 0 ∧ t.outcome = .timeout ∧ t.dir = .write ∧
      t.txbuf = s.txbuf ∧ s.txbuf.length = 6 ∧ t.shadow = s.shadow ∧ t.inputs = s.inputs ∧
      t.trace = s.trace ++ [.setWriteMode, .write s.txbuf (writeAnswer s).ok] ∧
      ((writeAnswer s).ok = true → t.phase = .settle ∧ t.wire = s.wire ++ s.txbuf) ∧
      ((writeAnswer s).ok = false → t.phase = .idle ∧ t.resValid = true ∧ t.resStatus = .ioFailure)

/-- R155, R72: the settle wait, then the turn-around; nothing is read. -/
def Obligations.SettleThenReadMode : Prop :=
  ∀ s : State, s.phase = .settle → s.resetIn = none →
    ∃ t, step s = .next t ∧ t.phase = .poll ∧ t.dir = .read ∧ s.clock + s.timing.tSettle ≤ t.clock ∧
      t.trace = s.trace ++ [.wait s.timing.tSettle, .setReadMode] ∧ t.rxStore = s.rxStore ∧ t.inputs = s.inputs ∧
      t.rxbuf = s.rxbuf ∧ t.txbuf = s.txbuf ∧ t.shadow = s.shadow ∧ t.resValid = s.resValid

/-! ## The whole machine -/

/-- R166: a busy engine makes no transition but those of the table, with the results the table gives. -/
def Obligations.TransitionTable : Prop :=
  (∀ (s : State) (c : PortCmd), s.phase = .idle → (accept c s).phase = .check) ∧
  ∀ s : State, Inv s → s.busy = true → s.resetIn = none → ∃ t, step s = .next t ∧
    ((s.phase = .check ∧ t.phase = .idle ∧ (t.resStatus = .invalidParameterCount ∨ t.resStatus = .outOfRange)) ∨
     (s.phase = .check ∧ t.phase = .tx) ∨
     (s.phase = .tx ∧ (writeAnswer s).ok = false ∧ t.phase = .idle ∧ t.resStatus = .ioFailure) ∨
     (s.phase = .tx ∧ (writeAnswer s).ok = true ∧ (∃ w, Checked s (.write w)) ∧ t.phase = .idle ∧ t.resStatus = .ok) ∨
     (s.phase = .tx ∧ (writeAnswer s).ok = true ∧ (∃ r, Checked s (.read r)) ∧ t.phase = .settle) ∨
     (s.phase = .settle ∧ t.phase = .poll) ∨
     (s.phase = .poll ∧ t.phase = .poll ∧ t.pollCnt = s.pollCnt + 1) ∨
     (s.phase = .poll ∧ t.phase = .idle ∧ t.resStatus = .ok ∧ replyHeld t = true) ∨
     (s.phase = .poll ∧ t.clock - s.t0 < s.timing.tBudget ∧ t.phase = .tx) ∨
     (s.phase = .poll ∧ s.timing.tBudget ≤ t.clock - s.t0 ∧ t.phase = .idle ∧ t.outcome = .timeout ∧
       t.resStatus = .timeout) ∨
     (s.phase = .poll ∧ (s.timing.tBudget ≤ t.clock - s.t0 ∨ s.timing.corruptRetry = false) ∧ t.phase = .idle ∧
       t.outcome = .corrupt ∧ t.resStatus = .corrupt)) ∧
    (t.phase = .idle → t.resValid = true)

/-- R21: no transition of a busy engine writes a latch. -/
def Obligations.LatchesKeptWhileBusy : Prop :=
  ∀ s t : State, s.busy = true → s.resetIn ≠ some 0 → step s = .next t →
    t.xId = s.xId ∧ t.xCmd = s.xCmd ∧ t.xNp = s.xNp ∧ t.xP0 = s.xP0 ∧ t.xP1 = s.xP1

/-- R35: the parameters are constants of the implementation. -/
def Obligations.TimingIsConstant : Prop :=
  ∀ s t : State, step s = .next t → t.timing = s.timing

/-- R31, R32: a step that changes a snapshot, other than the reset, is the end of a write command that ended `Ok`, and
the snapshot is that of the unicast ID in the latches. -/
def Obligations.ShadowWrittenOnlyOnOk : Prop :=
  ∀ (s t : State) (j : Nat), s.resetIn = none → Inv s → step s = .next t →
    shadowGet t.shadow j ≠ shadowGet s.shadow j →
    t.phase = .idle ∧ t.resValid = true ∧ t.resStatus = .ok ∧ j = t.xId.toNat ∧ j ≤ 253 ∧
      (Cmd.ofCode t.xCmd).map Cmd.kind = some .write

/-- R33, R34, R24: no rule reads the shadow file, the trace or `DIR`: two states that differ in nothing else take steps
that differ in nothing else. -/
def Obligations.ShadowTraceDirNeverRead : Prop :=
  ∀ s u : State, blind s = blind u →
    (∀ t, step s = .next t → ∃ v, step u = .next v ∧ blind t = blind v) ∧
    (∀ r, step s = .fault r → step u = .fault r) ∧ (∀ r, step s = .refused r → step u = .refused r)

/-- R164: the line direction that a command leaves. -/
def Obligations.DirectionAfterCommand : Prop :=
  ∀ (c : PortCmd) (s : State), Ready s → Inv s →
    ∃ t, step { s with inputs := .present c :: s.inputs } = .next t ∧ (t.resValid = true →
      ((t.resStatus = .outOfRange ∨ t.resStatus = .invalidParameterCount) → t.dir = s.dir) ∧
      (t.resStatus = .ioFailure → t.dir = .write) ∧
      ((t.resStatus = .timeout ∨ t.resStatus = .corrupt) → t.dir = .read) ∧
      (t.resStatus = .ok → ∀ k, Cmd.ofCode c.code = some k →
        t.dir = match k.kind with | .write => .write | .read => .read))

/-- R70, R67: what a step puts on the transmit stream is appended to it; when no `write` of the step failed, it is the
frames of its `write` events, one after the other. -/
def Obligations.StreamIsWritesInOrder : Prop :=
  ∀ s t : State, s.resetIn = none → step s = .next t →
    ∃ sent more, t.wire = s.wire ++ sent ∧ t.trace = s.trace ++ more ∧
      (hasFailedWrite more = false → sent = (writesOf more).flatten)

/-- R163: on a silent channel, whose `write`s all succeed, a read command ends with `Timeout` after more than one
transmission, if its first attempt keeps within the worst case of R8 (`Timing.ok` says that this is shorter than the
budget): the first `write`, the settle wait and the `N_POLL` poll waits take no longer than R8 has them take, and no time
passes between them. What comes before the query and after its first attempt may take any time. The state says what the
channel does for as long as the query can last. -/
def Obligations.SilentChannelTimesOut : Prop :=
  ∀ (i : Instr) (s : State) (first : WriteAnswer) (writes : List WriteAnswer) (settle : Nat) (polls waits : List Nat)
    (before : Nat) (lapses : List Nat), i.isReply = false → i.fields.cmd.kind = .read →
    i.fields.id ≠ 255 → Ready s → s.timing.ok = true → s.rxStore = [] →
    (∀ x ∈ s.inputs, x = Input.arrive []) → s.timing.tBudget * s.timing.nPoll ≤ s.inputs.length →
    s.writes = first :: writes → (∀ a ∈ s.writes, a.ok = true) → s.timing.tBudget ≤ s.writes.length →
    first.dur ≤ s.timing.writeMax →
    s.waits = settle :: polls ++ waits → polls.length = s.timing.nPoll →
    s.timing.tSettle + settle ≤ s.timing.settleMax → (∀ e ∈ polls, s.timing.tPoll + e ≤ s.timing.pollMax) →
    s.lapses = before :: 0 :: lapses →
    ∃ t more, exec i s = .next t ∧ t.phase = .idle ∧ t.resValid = true ∧ t.resStatus = .timeout ∧ 2 ≤ t.attempts ∧
      t.trace = s.trace ++ more ∧ (writesOf more).length = t.attempts

/-- R162, R166: a command in progress ends: whatever the line brings, at most `enoughTransitions` steps lead to `IDLE`.
That a step of a busy engine is one transition, and the bound itself, are the model's choices (logs 1 and 17). -/
def Obligations.EveryCommandEnds : Prop :=
  ∀ s : State, Inv s → s.busy = true →
    ∃ n t, n ≤ enoughTransitions s.timing ∧ Steps n s t ∧ t.phase = .idle

/-- The clock of R10 and R12 item 1 (d): it never goes back, in any step; what `now()` answers in a step lies between the
clock before and the clock after it, no answer below an earlier one; and a query may start at any time from the clock on.
That the machine holds the clock as a number, moved by writes, waits and the lapses it is told, is the model's choice
(log 10). -/
def Obligations.ClockNeverGoesBack : Prop :=
  (∀ s t : State, step s = .next t → s.clock ≤ t.clock ∧
    (s.resetIn = none → ∃ more, t.trace = s.trace ++ more ∧ (clockReads more).Pairwise (· ≤ ·) ∧
      ∀ n ∈ clockReads more, s.clock ≤ n ∧ n ≤ t.clock)) ∧
  (∀ (i : Instr) (s : State) (n : Nat), i.isReply = false → i.fields.cmd.kind = .read → i.fields.id ≠ 255 → Ready s →
    s.clock ≤ n → ∃ t, exec i { s with lapses := (n - s.clock) :: s.lapses } = .next t ∧ t.t0 = n)

/-- The invariant holds at reset. -/
def Obligations.InvariantAtReset : Prop := Inv State.reset

/-- Every step keeps the invariant: the canonical form and the ranges of the shadow file (R30), the empty receive buffer
(R28), the legal results (R240), the checked command and its frame (R165), the line direction in a query (R154, R155),
and the time each attempt takes with the bound it gives on their number (R162). -/
def Obligations.EveryStepKeepsInvariant : Prop :=
  ∀ s t : State, Inv s → step s = .next t → Inv t

/-- R162: a query makes at most `T_BUDGET / T_SETTLE` attempts, rounded up. -/
def Obligations.AttemptsAreBounded : Prop :=
  ∀ (i : Instr) (s : State), i.isReply = false → i.fields.cmd.kind = .read → Ready s → Inv s →
    ∃ t, exec i s = .next t ∧
      t.attempts ≤ (s.timing.tBudget + s.timing.tSettle - 1) / s.timing.tSettle

/-! ## The host -/

/-- R29, U14: the host's read of the reply registers is served when they hold a reply, and faults when they hold none: after
every error, after every write command. R33: the snapshot port serves the IDs that have an entry. None changes the
engine. That these reads are inputs of the machine is the model's choice (log 13). -/
def Obligations.HostReadsAreServed : Prop :=
  (∀ (s : State) (rest : List Input), Ready s → s.inputs = .readReply :: rest →
    (replyHeld s = true → step s = .next { s with inputs := rest }) ∧
    (replyHeld s = false → step s = .fault .noReplyValue)) ∧
  (∀ (s : State) (id : Byte) (rest : List Input), Ready s → s.inputs = .readShadow id :: rest →
    (id.toNat ≤ 253 → step s = .next { s with inputs := rest } ∧ readShadowPort id s = some (shadowGet s.shadow id.toNat)) ∧
    (253 < id.toNat → step s = .fault .noShadowEntry)) ∧
  (∀ (e : Status) (s : State), e ≠ .ok → replyHeld (raise e s) = false) ∧
  (∀ (s : State) (c : Cmd), c.kind = .write → s.xCmd = c.code → replyHeld s = false)

/-- R112, R113, Scenario C: staging the joints of a leg and triggering it makes exactly six transmissions: three stage
frames, then three trigger frames, each in shoulder-knee-ankle order, with no query traffic. -/
def Obligations.StageThenTriggerTraffic : Prop :=
  ∀ (st : State) (leg : Nat) (s k a dur : Word) (a1 a2 a3 a4 a5 a6 : WriteAnswer) (later : List WriteAnswer),
    leg ≤ 5 → Ready st → s.toNat ≤ 1000 → k.toNat ≤ 1000 → a.toNat ≤ 1000 → dur.toNat ≤ 30000 →
    st.writes = a1 :: a2 :: a3 :: a4 :: a5 :: a6 :: later →
    (∀ x ∈ [a1, a2, a3, a4, a5, a6], x.ok = true) →
    ∃ t, runMacro (stagePosition leg s k a dur ++ triggerAll leg) st = .next t ∧
      t.phase = .idle ∧ t.resStatus = .ok ∧
      t.trace = st.trace ++
        [.setWriteMode, .write (frameOf (jointId leg 1) 7 (.two s dur)) true,
         .setWriteMode, .write (frameOf (jointId leg 2) 7 (.two k dur)) true,
         .setWriteMode, .write (frameOf (jointId leg 3) 7 (.two a dur)) true,
         .setWriteMode, .write (frameOf (jointId leg 1) 11 .zero) true,
         .setWriteMode, .write (frameOf (jointId leg 2) 11 .zero) true,
         .setWriteMode, .write (frameOf (jointId leg 3) 11 .zero) true]

/-- A macro stops at the first command that does not end `Ok` (`30_encoding.md` section 5, R253, R293), whatever its
commands are: a run that ends has called either all of them, each to `Ok`, or those before one that did not end `Ok`, each
to `Ok`, and that one. That the host is blocked in a call is R25's, and how a call is made of steps the model's choice
(logs 1 and 22). -/
def Obligations.MacroStopsAtFirstFailure : Prop :=
  ∀ (cmds : List PortCmd) (s t : State), runMacro cmds s = .next t ↔
    RunsOk cmds s t ∨
      ∃ (done : List PortCmd) (failed : PortCmd) (skipped : List PortCmd) (u : State),
        cmds = done ++ failed :: skipped ∧ RunsOk done s u ∧ callCommand failed u = .next t ∧
          ¬(t.resValid = true ∧ t.resStatus = .ok)

/-- One case of a macro that fails (R293): when the second stage command of a leg meets a failing `write`, the third is
not staged and nothing is triggered. -/
def Obligations.FailedStageStopsMacro : Prop :=
  ∀ (st : State) (leg : Nat) (s k a dur : Word) (a1 a2 : WriteAnswer) (later : List WriteAnswer),
    leg ≤ 5 → Ready st → s.toNat ≤ 1000 → k.toNat ≤ 1000 → a.toNat ≤ 1000 → dur.toNat ≤ 30000 →
    st.writes = a1 :: a2 :: later → a1.ok = true → a2.ok = false →
    ∃ t, runMacro (stagePosition leg s k a dur ++ triggerAll leg) st = .next t ∧ t.resStatus = .ioFailure ∧
      t.trace = st.trace ++
        [.setWriteMode, .write (frameOf (jointId leg 1) 7 (.two s dur)) true,
         .setWriteMode, .write (frameOf (jointId leg 2) 7 (.two k dur)) false]
end

