-- ==== Sys2Proof/Laws/State.lean ====
section
/-! SUPPORT. One lemma per field of the state per named operation over it, so that no later proof unfolds a record
update. -/

namespace Sys2Proof.Machine

variable (s : State)

/-! ## `setWriteMode` -/

@[simp] theorem setWriteMode_xId : (setWriteMode s).xId = s.xId := rfl
@[simp] theorem setWriteMode_xCmd : (setWriteMode s).xCmd = s.xCmd := rfl
@[simp] theorem setWriteMode_xNp : (setWriteMode s).xNp = s.xNp := rfl
@[simp] theorem setWriteMode_xP0 : (setWriteMode s).xP0 = s.xP0 := rfl
@[simp] theorem setWriteMode_xP1 : (setWriteMode s).xP1 = s.xP1 := rfl
@[simp] theorem setWriteMode_phase : (setWriteMode s).phase = s.phase := rfl
@[simp] theorem setWriteMode_dir : (setWriteMode s).dir = .write := rfl
@[simp] theorem setWriteMode_t0 : (setWriteMode s).t0 = s.t0 := rfl
@[simp] theorem setWriteMode_attempts : (setWriteMode s).attempts = s.attempts := rfl
@[simp] theorem setWriteMode_pollCnt : (setWriteMode s).pollCnt = s.pollCnt := rfl
@[simp] theorem setWriteMode_outcome : (setWriteMode s).outcome = s.outcome := rfl
@[simp] theorem setWriteMode_txbuf : (setWriteMode s).txbuf = s.txbuf := rfl
@[simp] theorem setWriteMode_rxbuf : (setWriteMode s).rxbuf = s.rxbuf := rfl
@[simp] theorem setWriteMode_resValid : (setWriteMode s).resValid = s.resValid := rfl
@[simp] theorem setWriteMode_resStatus : (setWriteMode s).resStatus = s.resStatus := rfl
@[simp] theorem setWriteMode_resId : (setWriteMode s).resId = s.resId := rfl
@[simp] theorem setWriteMode_resCmd : (setWriteMode s).resCmd = s.resCmd := rfl
@[simp] theorem setWriteMode_resNp : (setWriteMode s).resNp = s.resNp := rfl
@[simp] theorem setWriteMode_resP0 : (setWriteMode s).resP0 = s.resP0 := rfl
@[simp] theorem setWriteMode_resP1 : (setWriteMode s).resP1 = s.resP1 := rfl
@[simp] theorem setWriteMode_shadow : (setWriteMode s).shadow = s.shadow := rfl
@[simp] theorem setWriteMode_trace : (setWriteMode s).trace = s.trace ++ [.setWriteMode] := rfl
@[simp] theorem setWriteMode_timing : (setWriteMode s).timing = s.timing := rfl
@[simp] theorem setWriteMode_clock : (setWriteMode s).clock = s.clock := rfl
@[simp] theorem setWriteMode_wire : (setWriteMode s).wire = s.wire := rfl
@[simp] theorem setWriteMode_rxStore : (setWriteMode s).rxStore = s.rxStore := rfl
@[simp] theorem setWriteMode_inputs : (setWriteMode s).inputs = s.inputs := rfl
@[simp] theorem setWriteMode_writes : (setWriteMode s).writes = s.writes := rfl
@[simp] theorem setWriteMode_waits : (setWriteMode s).waits = s.waits := rfl
@[simp] theorem setWriteMode_lapses : (setWriteMode s).lapses = s.lapses := rfl
@[simp] theorem setWriteMode_resetsAfter : (setWriteMode s).resetsAfter = s.resetsAfter := rfl
@[simp] theorem setWriteMode_resetIn : (setWriteMode s).resetIn = s.resetIn := rfl
@[simp] theorem setWriteMode_draws : (setWriteMode s).draws = s.draws := rfl

/-! ## `setReadMode` -/

@[simp] theorem setReadMode_xId : (setReadMode s).xId = s.xId := rfl
@[simp] theorem setReadMode_xCmd : (setReadMode s).xCmd = s.xCmd := rfl
@[simp] theorem setReadMode_xNp : (setReadMode s).xNp = s.xNp := rfl
@[simp] theorem setReadMode_xP0 : (setReadMode s).xP0 = s.xP0 := rfl
@[simp] theorem setReadMode_xP1 : (setReadMode s).xP1 = s.xP1 := rfl
@[simp] theorem setReadMode_phase : (setReadMode s).phase = s.phase := rfl
@[simp] theorem setReadMode_dir : (setReadMode s).dir = .read := rfl
@[simp] theorem setReadMode_t0 : (setReadMode s).t0 = s.t0 := rfl
@[simp] theorem setReadMode_attempts : (setReadMode s).attempts = s.attempts := rfl
@[simp] theorem setReadMode_pollCnt : (setReadMode s).pollCnt = s.pollCnt := rfl
@[simp] theorem setReadMode_outcome : (setReadMode s).outcome = s.outcome := rfl
@[simp] theorem setReadMode_txbuf : (setReadMode s).txbuf = s.txbuf := rfl
@[simp] theorem setReadMode_rxbuf : (setReadMode s).rxbuf = s.rxbuf := rfl
@[simp] theorem setReadMode_resValid : (setReadMode s).resValid = s.resValid := rfl
@[simp] theorem setReadMode_resStatus : (setReadMode s).resStatus = s.resStatus := rfl
@[simp] theorem setReadMode_resId : (setReadMode s).resId = s.resId := rfl
@[simp] theorem setReadMode_resCmd : (setReadMode s).resCmd = s.resCmd := rfl
@[simp] theorem setReadMode_resNp : (setReadMode s).resNp = s.resNp := rfl
@[simp] theorem setReadMode_resP0 : (setReadMode s).resP0 = s.resP0 := rfl
@[simp] theorem setReadMode_resP1 : (setReadMode s).resP1 = s.resP1 := rfl
@[simp] theorem setReadMode_shadow : (setReadMode s).shadow = s.shadow := rfl
@[simp] theorem setReadMode_trace : (setReadMode s).trace = s.trace ++ [.setReadMode] := rfl
@[simp] theorem setReadMode_timing : (setReadMode s).timing = s.timing := rfl
@[simp] theorem setReadMode_clock : (setReadMode s).clock = s.clock := rfl
@[simp] theorem setReadMode_wire : (setReadMode s).wire = s.wire := rfl
@[simp] theorem setReadMode_rxStore : (setReadMode s).rxStore = s.rxStore := rfl
@[simp] theorem setReadMode_inputs : (setReadMode s).inputs = s.inputs := rfl
@[simp] theorem setReadMode_writes : (setReadMode s).writes = s.writes := rfl
@[simp] theorem setReadMode_waits : (setReadMode s).waits = s.waits := rfl
@[simp] theorem setReadMode_lapses : (setReadMode s).lapses = s.lapses := rfl
@[simp] theorem setReadMode_resetsAfter : (setReadMode s).resetsAfter = s.resetsAfter := rfl
@[simp] theorem setReadMode_resetIn : (setReadMode s).resetIn = s.resetIn := rfl
@[simp] theorem setReadMode_draws : (setReadMode s).draws = s.draws := rfl

/-! ## `writeLine` -/

@[simp] theorem writeLine_xId : (writeLine s).xId = s.xId := rfl
@[simp] theorem writeLine_xCmd : (writeLine s).xCmd = s.xCmd := rfl
@[simp] theorem writeLine_xNp : (writeLine s).xNp = s.xNp := rfl
@[simp] theorem writeLine_xP0 : (writeLine s).xP0 = s.xP0 := rfl
@[simp] theorem writeLine_xP1 : (writeLine s).xP1 = s.xP1 := rfl
@[simp] theorem writeLine_phase : (writeLine s).phase = s.phase := rfl
@[simp] theorem writeLine_dir : (writeLine s).dir = s.dir := rfl
@[simp] theorem writeLine_t0 : (writeLine s).t0 = s.t0 := rfl
@[simp] theorem writeLine_attempts : (writeLine s).attempts = s.attempts := rfl
@[simp] theorem writeLine_pollCnt : (writeLine s).pollCnt = s.pollCnt := rfl
@[simp] theorem writeLine_outcome : (writeLine s).outcome = s.outcome := rfl
@[simp] theorem writeLine_txbuf : (writeLine s).txbuf = s.txbuf := rfl
@[simp] theorem writeLine_rxbuf : (writeLine s).rxbuf = s.rxbuf := rfl
@[simp] theorem writeLine_resValid : (writeLine s).resValid = s.resValid := rfl
@[simp] theorem writeLine_resStatus : (writeLine s).resStatus = s.resStatus := rfl
@[simp] theorem writeLine_resId : (writeLine s).resId = s.resId := rfl
@[simp] theorem writeLine_resCmd : (writeLine s).resCmd = s.resCmd := rfl
@[simp] theorem writeLine_resNp : (writeLine s).resNp = s.resNp := rfl
@[simp] theorem writeLine_resP0 : (writeLine s).resP0 = s.resP0 := rfl
@[simp] theorem writeLine_resP1 : (writeLine s).resP1 = s.resP1 := rfl
@[simp] theorem writeLine_shadow : (writeLine s).shadow = s.shadow := rfl
@[simp] theorem writeLine_trace : (writeLine s).trace = s.trace ++ [.write s.txbuf (writeAnswer s).ok] := rfl
@[simp] theorem writeLine_timing : (writeLine s).timing = s.timing := rfl
@[simp] theorem writeLine_clock : (writeLine s).clock = s.clock + (writeAnswer s).dur := rfl
@[simp] theorem writeLine_wire :
    (writeLine s).wire = s.wire ++ (if (writeAnswer s).ok then s.txbuf else s.txbuf.take (writeAnswer s).sent) := rfl
@[simp] theorem writeLine_rxStore : (writeLine s).rxStore = s.rxStore := rfl
@[simp] theorem writeLine_inputs : (writeLine s).inputs = s.inputs := rfl
@[simp] theorem writeLine_writes : (writeLine s).writes = s.writes.tail := rfl
@[simp] theorem writeLine_waits : (writeLine s).waits = s.waits := rfl
@[simp] theorem writeLine_lapses : (writeLine s).lapses = s.lapses := rfl
@[simp] theorem writeLine_resetsAfter : (writeLine s).resetsAfter = s.resetsAfter := rfl
@[simp] theorem writeLine_resetIn : (writeLine s).resetIn = s.resetIn := rfl
@[simp] theorem writeLine_draws : (writeLine s).draws = { s.draws with write := s.draws.write + 1 } := rfl

/-! ## `waitFor` -/

@[simp] theorem waitFor_xId (n : Nat) : (waitFor n s).xId = s.xId := rfl
@[simp] theorem waitFor_xCmd (n : Nat) : (waitFor n s).xCmd = s.xCmd := rfl
@[simp] theorem waitFor_xNp (n : Nat) : (waitFor n s).xNp = s.xNp := rfl
@[simp] theorem waitFor_xP0 (n : Nat) : (waitFor n s).xP0 = s.xP0 := rfl
@[simp] theorem waitFor_xP1 (n : Nat) : (waitFor n s).xP1 = s.xP1 := rfl
@[simp] theorem waitFor_phase (n : Nat) : (waitFor n s).phase = s.phase := rfl
@[simp] theorem waitFor_dir (n : Nat) : (waitFor n s).dir = s.dir := rfl
@[simp] theorem waitFor_t0 (n : Nat) : (waitFor n s).t0 = s.t0 := rfl
@[simp] theorem waitFor_attempts (n : Nat) : (waitFor n s).attempts = s.attempts := rfl
@[simp] theorem waitFor_pollCnt (n : Nat) : (waitFor n s).pollCnt = s.pollCnt := rfl
@[simp] theorem waitFor_outcome (n : Nat) : (waitFor n s).outcome = s.outcome := rfl
@[simp] theorem waitFor_txbuf (n : Nat) : (waitFor n s).txbuf = s.txbuf := rfl
@[simp] theorem waitFor_rxbuf (n : Nat) : (waitFor n s).rxbuf = s.rxbuf := rfl
@[simp] theorem waitFor_resValid (n : Nat) : (waitFor n s).resValid = s.resValid := rfl
@[simp] theorem waitFor_resStatus (n : Nat) : (waitFor n s).resStatus = s.resStatus := rfl
@[simp] theorem waitFor_resId (n : Nat) : (waitFor n s).resId = s.resId := rfl
@[simp] theorem waitFor_resCmd (n : Nat) : (waitFor n s).resCmd = s.resCmd := rfl
@[simp] theorem waitFor_resNp (n : Nat) : (waitFor n s).resNp = s.resNp := rfl
@[simp] theorem waitFor_resP0 (n : Nat) : (waitFor n s).resP0 = s.resP0 := rfl
@[simp] theorem waitFor_resP1 (n : Nat) : (waitFor n s).resP1 = s.resP1 := rfl
@[simp] theorem waitFor_shadow (n : Nat) : (waitFor n s).shadow = s.shadow := rfl
@[simp] theorem waitFor_trace (n : Nat) : (waitFor n s).trace = s.trace ++ [.wait n] := rfl
@[simp] theorem waitFor_timing (n : Nat) : (waitFor n s).timing = s.timing := rfl
@[simp] theorem waitFor_clock (n : Nat) : (waitFor n s).clock = s.clock + n + waitExcess s := rfl
@[simp] theorem waitFor_wire (n : Nat) : (waitFor n s).wire = s.wire := rfl
@[simp] theorem waitFor_rxStore (n : Nat) : (waitFor n s).rxStore = s.rxStore := rfl
@[simp] theorem waitFor_inputs (n : Nat) : (waitFor n s).inputs = s.inputs := rfl
@[simp] theorem waitFor_writes (n : Nat) : (waitFor n s).writes = s.writes := rfl
@[simp] theorem waitFor_waits (n : Nat) : (waitFor n s).waits = s.waits.tail := rfl
@[simp] theorem waitFor_lapses (n : Nat) : (waitFor n s).lapses = s.lapses := rfl
@[simp] theorem waitFor_resetsAfter (n : Nat) : (waitFor n s).resetsAfter = s.resetsAfter := rfl
@[simp] theorem waitFor_resetIn (n : Nat) : (waitFor n s).resetIn = s.resetIn := rfl
@[simp] theorem waitFor_draws (n : Nat) : (waitFor n s).draws = { s.draws with wait := s.draws.wait + 1 } := rfl

/-! ## `readClock` -/

@[simp] theorem readClock_xId : (readClock s).xId = s.xId := rfl
@[simp] theorem readClock_xCmd : (readClock s).xCmd = s.xCmd := rfl
@[simp] theorem readClock_xNp : (readClock s).xNp = s.xNp := rfl
@[simp] theorem readClock_xP0 : (readClock s).xP0 = s.xP0 := rfl
@[simp] theorem readClock_xP1 : (readClock s).xP1 = s.xP1 := rfl
@[simp] theorem readClock_phase : (readClock s).phase = s.phase := rfl
@[simp] theorem readClock_dir : (readClock s).dir = s.dir := rfl
@[simp] theorem readClock_t0 : (readClock s).t0 = s.t0 := rfl
@[simp] theorem readClock_attempts : (readClock s).attempts = s.attempts := rfl
@[simp] theorem readClock_pollCnt : (readClock s).pollCnt = s.pollCnt := rfl
@[simp] theorem readClock_outcome : (readClock s).outcome = s.outcome := rfl
@[simp] theorem readClock_txbuf : (readClock s).txbuf = s.txbuf := rfl
@[simp] theorem readClock_rxbuf : (readClock s).rxbuf = s.rxbuf := rfl
@[simp] theorem readClock_resValid : (readClock s).resValid = s.resValid := rfl
@[simp] theorem readClock_resStatus : (readClock s).resStatus = s.resStatus := rfl
@[simp] theorem readClock_resId : (readClock s).resId = s.resId := rfl
@[simp] theorem readClock_resCmd : (readClock s).resCmd = s.resCmd := rfl
@[simp] theorem readClock_resNp : (readClock s).resNp = s.resNp := rfl
@[simp] theorem readClock_resP0 : (readClock s).resP0 = s.resP0 := rfl
@[simp] theorem readClock_resP1 : (readClock s).resP1 = s.resP1 := rfl
@[simp] theorem readClock_shadow : (readClock s).shadow = s.shadow := rfl
@[simp] theorem readClock_trace : (readClock s).trace = s.trace ++ [.now (clockAnswer s)] := rfl
@[simp] theorem readClock_timing : (readClock s).timing = s.timing := rfl
@[simp] theorem readClock_clock : (readClock s).clock = clockAnswer s := rfl
@[simp] theorem readClock_wire : (readClock s).wire = s.wire := rfl
@[simp] theorem readClock_rxStore : (readClock s).rxStore = s.rxStore := rfl
@[simp] theorem readClock_inputs : (readClock s).inputs = s.inputs := rfl
@[simp] theorem readClock_writes : (readClock s).writes = s.writes := rfl
@[simp] theorem readClock_waits : (readClock s).waits = s.waits := rfl
@[simp] theorem readClock_lapses : (readClock s).lapses = s.lapses.tail := rfl
@[simp] theorem readClock_resetsAfter : (readClock s).resetsAfter = s.resetsAfter := rfl
@[simp] theorem readClock_resetIn : (readClock s).resetIn = s.resetIn := rfl
@[simp] theorem readClock_draws : (readClock s).draws = { s.draws with lapse := s.draws.lapse + 1 } := rfl

/-! ## `receive` -/

@[simp] theorem receive_xId (b : List Byte) : (receive b s).xId = s.xId := rfl
@[simp] theorem receive_xCmd (b : List Byte) : (receive b s).xCmd = s.xCmd := rfl
@[simp] theorem receive_xNp (b : List Byte) : (receive b s).xNp = s.xNp := rfl
@[simp] theorem receive_xP0 (b : List Byte) : (receive b s).xP0 = s.xP0 := rfl
@[simp] theorem receive_xP1 (b : List Byte) : (receive b s).xP1 = s.xP1 := rfl
@[simp] theorem receive_phase (b : List Byte) : (receive b s).phase = s.phase := rfl
@[simp] theorem receive_dir (b : List Byte) : (receive b s).dir = s.dir := rfl
@[simp] theorem receive_t0 (b : List Byte) : (receive b s).t0 = s.t0 := rfl
@[simp] theorem receive_attempts (b : List Byte) : (receive b s).attempts = s.attempts := rfl
@[simp] theorem receive_pollCnt (b : List Byte) : (receive b s).pollCnt = s.pollCnt := rfl
@[simp] theorem receive_outcome (b : List Byte) : (receive b s).outcome = s.outcome := rfl
@[simp] theorem receive_txbuf (b : List Byte) : (receive b s).txbuf = s.txbuf := rfl
@[simp] theorem receive_rxbuf (b : List Byte) : (receive b s).rxbuf = s.rxbuf := rfl
@[simp] theorem receive_resValid (b : List Byte) : (receive b s).resValid = s.resValid := rfl
@[simp] theorem receive_resStatus (b : List Byte) : (receive b s).resStatus = s.resStatus := rfl
@[simp] theorem receive_resId (b : List Byte) : (receive b s).resId = s.resId := rfl
@[simp] theorem receive_resCmd (b : List Byte) : (receive b s).resCmd = s.resCmd := rfl
@[simp] theorem receive_resNp (b : List Byte) : (receive b s).resNp = s.resNp := rfl
@[simp] theorem receive_resP0 (b : List Byte) : (receive b s).resP0 = s.resP0 := rfl
@[simp] theorem receive_resP1 (b : List Byte) : (receive b s).resP1 = s.resP1 := rfl
@[simp] theorem receive_shadow (b : List Byte) : (receive b s).shadow = s.shadow := rfl
@[simp] theorem receive_trace (b : List Byte) : (receive b s).trace = s.trace := rfl
@[simp] theorem receive_timing (b : List Byte) : (receive b s).timing = s.timing := rfl
@[simp] theorem receive_clock (b : List Byte) : (receive b s).clock = s.clock := rfl
@[simp] theorem receive_wire (b : List Byte) : (receive b s).wire = s.wire := rfl
@[simp] theorem receive_rxStore (b : List Byte) : (receive b s).rxStore = s.rxStore ++ b := rfl
@[simp] theorem receive_inputs (b : List Byte) : (receive b s).inputs = s.inputs := rfl
@[simp] theorem receive_writes (b : List Byte) : (receive b s).writes = s.writes := rfl
@[simp] theorem receive_waits (b : List Byte) : (receive b s).waits = s.waits := rfl
@[simp] theorem receive_lapses (b : List Byte) : (receive b s).lapses = s.lapses := rfl
@[simp] theorem receive_resetsAfter (b : List Byte) : (receive b s).resetsAfter = s.resetsAfter := rfl
@[simp] theorem receive_resetIn (b : List Byte) : (receive b s).resetIn = s.resetIn := rfl
@[simp] theorem receive_draws (b : List Byte) : (receive b s).draws = s.draws := rfl

/-! ## `readAvailable` -/

@[simp] theorem readAvailable_xId : (readAvailable s).xId = s.xId := rfl
@[simp] theorem readAvailable_xCmd : (readAvailable s).xCmd = s.xCmd := rfl
@[simp] theorem readAvailable_xNp : (readAvailable s).xNp = s.xNp := rfl
@[simp] theorem readAvailable_xP0 : (readAvailable s).xP0 = s.xP0 := rfl
@[simp] theorem readAvailable_xP1 : (readAvailable s).xP1 = s.xP1 := rfl
@[simp] theorem readAvailable_phase : (readAvailable s).phase = s.phase := rfl
@[simp] theorem readAvailable_dir : (readAvailable s).dir = s.dir := rfl
@[simp] theorem readAvailable_t0 : (readAvailable s).t0 = s.t0 := rfl
@[simp] theorem readAvailable_attempts : (readAvailable s).attempts = s.attempts := rfl
@[simp] theorem readAvailable_pollCnt : (readAvailable s).pollCnt = s.pollCnt := rfl
@[simp] theorem readAvailable_outcome : (readAvailable s).outcome = s.outcome := rfl
@[simp] theorem readAvailable_txbuf : (readAvailable s).txbuf = s.txbuf := rfl
@[simp] theorem readAvailable_rxbuf : (readAvailable s).rxbuf = s.rxStore := rfl
@[simp] theorem readAvailable_resValid : (readAvailable s).resValid = s.resValid := rfl
@[simp] theorem readAvailable_resStatus : (readAvailable s).resStatus = s.resStatus := rfl
@[simp] theorem readAvailable_resId : (readAvailable s).resId = s.resId := rfl
@[simp] theorem readAvailable_resCmd : (readAvailable s).resCmd = s.resCmd := rfl
@[simp] theorem readAvailable_resNp : (readAvailable s).resNp = s.resNp := rfl
@[simp] theorem readAvailable_resP0 : (readAvailable s).resP0 = s.resP0 := rfl
@[simp] theorem readAvailable_resP1 : (readAvailable s).resP1 = s.resP1 := rfl
@[simp] theorem readAvailable_shadow : (readAvailable s).shadow = s.shadow := rfl
@[simp] theorem readAvailable_trace : (readAvailable s).trace = s.trace ++ [.readAvailable s.rxStore] := rfl
@[simp] theorem readAvailable_timing : (readAvailable s).timing = s.timing := rfl
@[simp] theorem readAvailable_clock : (readAvailable s).clock = s.clock := rfl
@[simp] theorem readAvailable_wire : (readAvailable s).wire = s.wire := rfl
@[simp] theorem readAvailable_rxStore : (readAvailable s).rxStore = [] := rfl
@[simp] theorem readAvailable_inputs : (readAvailable s).inputs = s.inputs := rfl
@[simp] theorem readAvailable_writes : (readAvailable s).writes = s.writes := rfl
@[simp] theorem readAvailable_waits : (readAvailable s).waits = s.waits := rfl
@[simp] theorem readAvailable_lapses : (readAvailable s).lapses = s.lapses := rfl
@[simp] theorem readAvailable_resetsAfter : (readAvailable s).resetsAfter = s.resetsAfter := rfl
@[simp] theorem readAvailable_resetIn : (readAvailable s).resetIn = s.resetIn := rfl
@[simp] theorem readAvailable_draws : (readAvailable s).draws = s.draws := rfl

/-! ## `dropReply` -/

@[simp] theorem dropReply_xId : (dropReply s).xId = s.xId := rfl
@[simp] theorem dropReply_xCmd : (dropReply s).xCmd = s.xCmd := rfl
@[simp] theorem dropReply_xNp : (dropReply s).xNp = s.xNp := rfl
@[simp] theorem dropReply_xP0 : (dropReply s).xP0 = s.xP0 := rfl
@[simp] theorem dropReply_xP1 : (dropReply s).xP1 = s.xP1 := rfl
@[simp] theorem dropReply_phase : (dropReply s).phase = s.phase := rfl
@[simp] theorem dropReply_dir : (dropReply s).dir = s.dir := rfl
@[simp] theorem dropReply_t0 : (dropReply s).t0 = s.t0 := rfl
@[simp] theorem dropReply_attempts : (dropReply s).attempts = s.attempts := rfl
@[simp] theorem dropReply_pollCnt : (dropReply s).pollCnt = s.pollCnt := rfl
@[simp] theorem dropReply_outcome : (dropReply s).outcome = s.outcome := rfl
@[simp] theorem dropReply_txbuf : (dropReply s).txbuf = s.txbuf := rfl
@[simp] theorem dropReply_rxbuf : (dropReply s).rxbuf = s.rxbuf := rfl
@[simp] theorem dropReply_resValid : (dropReply s).resValid = s.resValid := rfl
@[simp] theorem dropReply_resStatus : (dropReply s).resStatus = s.resStatus := rfl
@[simp] theorem dropReply_resId : (dropReply s).resId = noValue 8 0 s := rfl
@[simp] theorem dropReply_resCmd : (dropReply s).resCmd = noValue 8 1 s := rfl
@[simp] theorem dropReply_resNp : (dropReply s).resNp = noValue 2 2 s := rfl
@[simp] theorem dropReply_resP0 : (dropReply s).resP0 = noValue 16 3 s := rfl
@[simp] theorem dropReply_resP1 : (dropReply s).resP1 = noValue 16 4 s := rfl
@[simp] theorem dropReply_shadow : (dropReply s).shadow = s.shadow := rfl
@[simp] theorem dropReply_trace : (dropReply s).trace = s.trace := rfl
@[simp] theorem dropReply_timing : (dropReply s).timing = s.timing := rfl
@[simp] theorem dropReply_clock : (dropReply s).clock = s.clock := rfl
@[simp] theorem dropReply_wire : (dropReply s).wire = s.wire := rfl
@[simp] theorem dropReply_rxStore : (dropReply s).rxStore = s.rxStore := rfl
@[simp] theorem dropReply_inputs : (dropReply s).inputs = s.inputs := rfl
@[simp] theorem dropReply_writes : (dropReply s).writes = s.writes := rfl
@[simp] theorem dropReply_waits : (dropReply s).waits = s.waits := rfl
@[simp] theorem dropReply_lapses : (dropReply s).lapses = s.lapses := rfl
@[simp] theorem dropReply_resetsAfter : (dropReply s).resetsAfter = s.resetsAfter := rfl
@[simp] theorem dropReply_resetIn : (dropReply s).resetIn = s.resetIn := rfl
@[simp] theorem dropReply_draws : (dropReply s).draws = { s.draws with value := s.draws.value + 5 } := rfl

/-! ## `setReply` -/

@[simp] theorem setReply_xId (r : Reply) : (setReply r s).xId = s.xId := rfl
@[simp] theorem setReply_xCmd (r : Reply) : (setReply r s).xCmd = s.xCmd := rfl
@[simp] theorem setReply_xNp (r : Reply) : (setReply r s).xNp = s.xNp := rfl
@[simp] theorem setReply_xP0 (r : Reply) : (setReply r s).xP0 = s.xP0 := rfl
@[simp] theorem setReply_xP1 (r : Reply) : (setReply r s).xP1 = s.xP1 := rfl
@[simp] theorem setReply_phase (r : Reply) : (setReply r s).phase = s.phase := rfl
@[simp] theorem setReply_dir (r : Reply) : (setReply r s).dir = s.dir := rfl
@[simp] theorem setReply_t0 (r : Reply) : (setReply r s).t0 = s.t0 := rfl
@[simp] theorem setReply_attempts (r : Reply) : (setReply r s).attempts = s.attempts := rfl
@[simp] theorem setReply_pollCnt (r : Reply) : (setReply r s).pollCnt = s.pollCnt := rfl
@[simp] theorem setReply_outcome (r : Reply) : (setReply r s).outcome = s.outcome := rfl
@[simp] theorem setReply_txbuf (r : Reply) : (setReply r s).txbuf = s.txbuf := rfl
@[simp] theorem setReply_rxbuf (r : Reply) : (setReply r s).rxbuf = s.rxbuf := rfl
@[simp] theorem setReply_resValid (r : Reply) : (setReply r s).resValid = s.resValid := rfl
@[simp] theorem setReply_resStatus (r : Reply) : (setReply r s).resStatus = s.resStatus := rfl
@[simp] theorem setReply_resId (r : Reply) : (setReply r s).resId = r.id := rfl
@[simp] theorem setReply_resCmd (r : Reply) : (setReply r s).resCmd = r.code := rfl
@[simp] theorem setReply_resNp (r : Reply) : (setReply r s).resNp = r.args.np := rfl
@[simp] theorem setReply_resP0 (r : Reply) : (setReply r s).resP0 = r.args.first.getD (noValue 16 0 s) := rfl
@[simp] theorem setReply_resP1 (r : Reply) : (setReply r s).resP1 = r.args.second.getD (noValue 16 1 s) := rfl
@[simp] theorem setReply_shadow (r : Reply) : (setReply r s).shadow = s.shadow := rfl
@[simp] theorem setReply_trace (r : Reply) : (setReply r s).trace = s.trace := rfl
@[simp] theorem setReply_timing (r : Reply) : (setReply r s).timing = s.timing := rfl
@[simp] theorem setReply_clock (r : Reply) : (setReply r s).clock = s.clock := rfl
@[simp] theorem setReply_wire (r : Reply) : (setReply r s).wire = s.wire := rfl
@[simp] theorem setReply_rxStore (r : Reply) : (setReply r s).rxStore = s.rxStore := rfl
@[simp] theorem setReply_inputs (r : Reply) : (setReply r s).inputs = s.inputs := rfl
@[simp] theorem setReply_writes (r : Reply) : (setReply r s).writes = s.writes := rfl
@[simp] theorem setReply_waits (r : Reply) : (setReply r s).waits = s.waits := rfl
@[simp] theorem setReply_lapses (r : Reply) : (setReply r s).lapses = s.lapses := rfl
@[simp] theorem setReply_resetsAfter (r : Reply) : (setReply r s).resetsAfter = s.resetsAfter := rfl
@[simp] theorem setReply_resetIn (r : Reply) : (setReply r s).resetIn = s.resetIn := rfl
@[simp] theorem setReply_draws (r : Reply) : (setReply r s).draws = { s.draws with value := s.draws.value + 2 } := rfl

/-! ## `accept` -/

@[simp] theorem accept_xId (c : PortCmd) : (accept c s).xId = c.id := rfl
@[simp] theorem accept_xCmd (c : PortCmd) : (accept c s).xCmd = c.code := rfl
@[simp] theorem accept_xNp (c : PortCmd) : (accept c s).xNp = c.args.np := rfl
@[simp] theorem accept_xP0 (c : PortCmd) : (accept c s).xP0 = c.args.first.getD (noValue 16 0 s) := rfl
@[simp] theorem accept_xP1 (c : PortCmd) : (accept c s).xP1 = c.args.second.getD (noValue 16 1 s) := rfl
@[simp] theorem accept_phase (c : PortCmd) : (accept c s).phase = .check := rfl
@[simp] theorem accept_dir (c : PortCmd) : (accept c s).dir = s.dir := rfl
@[simp] theorem accept_t0 (c : PortCmd) : (accept c s).t0 = s.t0 := rfl
@[simp] theorem accept_attempts (c : PortCmd) : (accept c s).attempts = s.attempts := rfl
@[simp] theorem accept_pollCnt (c : PortCmd) : (accept c s).pollCnt = s.pollCnt := rfl
@[simp] theorem accept_outcome (c : PortCmd) : (accept c s).outcome = s.outcome := rfl
@[simp] theorem accept_txbuf (c : PortCmd) : (accept c s).txbuf = s.txbuf := rfl
@[simp] theorem accept_rxbuf (c : PortCmd) : (accept c s).rxbuf = s.rxbuf := rfl
@[simp] theorem accept_resValid (c : PortCmd) : (accept c s).resValid = false := rfl
@[simp] theorem accept_resStatus (c : PortCmd) : (accept c s).resStatus = s.resStatus := rfl
@[simp] theorem accept_resId (c : PortCmd) : (accept c s).resId = s.resId := rfl
@[simp] theorem accept_resCmd (c : PortCmd) : (accept c s).resCmd = s.resCmd := rfl
@[simp] theorem accept_resNp (c : PortCmd) : (accept c s).resNp = s.resNp := rfl
@[simp] theorem accept_resP0 (c : PortCmd) : (accept c s).resP0 = s.resP0 := rfl
@[simp] theorem accept_resP1 (c : PortCmd) : (accept c s).resP1 = s.resP1 := rfl
@[simp] theorem accept_shadow (c : PortCmd) : (accept c s).shadow = s.shadow := rfl
@[simp] theorem accept_trace (c : PortCmd) : (accept c s).trace = s.trace := rfl
@[simp] theorem accept_timing (c : PortCmd) : (accept c s).timing = s.timing := rfl
@[simp] theorem accept_clock (c : PortCmd) : (accept c s).clock = s.clock := rfl
@[simp] theorem accept_wire (c : PortCmd) : (accept c s).wire = s.wire := rfl
@[simp] theorem accept_rxStore (c : PortCmd) : (accept c s).rxStore = s.rxStore := rfl
@[simp] theorem accept_inputs (c : PortCmd) : (accept c s).inputs = s.inputs := rfl
@[simp] theorem accept_writes (c : PortCmd) : (accept c s).writes = s.writes := rfl
@[simp] theorem accept_waits (c : PortCmd) : (accept c s).waits = s.waits := rfl
@[simp] theorem accept_lapses (c : PortCmd) : (accept c s).lapses = s.lapses := rfl
@[simp] theorem accept_resetsAfter (c : PortCmd) : (accept c s).resetsAfter = s.resetsAfter := rfl
@[simp] theorem accept_resetIn (c : PortCmd) : (accept c s).resetIn = s.resetIn := rfl
@[simp] theorem accept_draws (c : PortCmd) : (accept c s).draws = { s.draws with value := s.draws.value + 2 } := rfl

/-! ## `setResult` -/

@[simp] theorem setResult_xId (r : Status) : (setResult r s).xId = s.xId := rfl
@[simp] theorem setResult_xCmd (r : Status) : (setResult r s).xCmd = s.xCmd := rfl
@[simp] theorem setResult_xNp (r : Status) : (setResult r s).xNp = s.xNp := rfl
@[simp] theorem setResult_xP0 (r : Status) : (setResult r s).xP0 = s.xP0 := rfl
@[simp] theorem setResult_xP1 (r : Status) : (setResult r s).xP1 = s.xP1 := rfl
@[simp] theorem setResult_phase (r : Status) : (setResult r s).phase = .idle := rfl
@[simp] theorem setResult_dir (r : Status) : (setResult r s).dir = s.dir := rfl
@[simp] theorem setResult_t0 (r : Status) : (setResult r s).t0 = s.t0 := rfl
@[simp] theorem setResult_attempts (r : Status) : (setResult r s).attempts = s.attempts := rfl
@[simp] theorem setResult_pollCnt (r : Status) : (setResult r s).pollCnt = s.pollCnt := rfl
@[simp] theorem setResult_outcome (r : Status) : (setResult r s).outcome = s.outcome := rfl
@[simp] theorem setResult_txbuf (r : Status) : (setResult r s).txbuf = s.txbuf := rfl
@[simp] theorem setResult_rxbuf (r : Status) : (setResult r s).rxbuf = s.rxbuf := rfl
@[simp] theorem setResult_resValid (r : Status) : (setResult r s).resValid = true := rfl
@[simp] theorem setResult_resStatus (r : Status) : (setResult r s).resStatus = r := rfl
@[simp] theorem setResult_resId (r : Status) : (setResult r s).resId = s.resId := rfl
@[simp] theorem setResult_resCmd (r : Status) : (setResult r s).resCmd = s.resCmd := rfl
@[simp] theorem setResult_resNp (r : Status) : (setResult r s).resNp = s.resNp := rfl
@[simp] theorem setResult_resP0 (r : Status) : (setResult r s).resP0 = s.resP0 := rfl
@[simp] theorem setResult_resP1 (r : Status) : (setResult r s).resP1 = s.resP1 := rfl
@[simp] theorem setResult_shadow (r : Status) : (setResult r s).shadow = s.shadow := rfl
@[simp] theorem setResult_trace (r : Status) : (setResult r s).trace = s.trace := rfl
@[simp] theorem setResult_timing (r : Status) : (setResult r s).timing = s.timing := rfl
@[simp] theorem setResult_clock (r : Status) : (setResult r s).clock = s.clock := rfl
@[simp] theorem setResult_wire (r : Status) : (setResult r s).wire = s.wire := rfl
@[simp] theorem setResult_rxStore (r : Status) : (setResult r s).rxStore = s.rxStore := rfl
@[simp] theorem setResult_inputs (r : Status) : (setResult r s).inputs = s.inputs := rfl
@[simp] theorem setResult_writes (r : Status) : (setResult r s).writes = s.writes := rfl
@[simp] theorem setResult_waits (r : Status) : (setResult r s).waits = s.waits := rfl
@[simp] theorem setResult_lapses (r : Status) : (setResult r s).lapses = s.lapses := rfl
@[simp] theorem setResult_resetsAfter (r : Status) : (setResult r s).resetsAfter = s.resetsAfter := rfl
@[simp] theorem setResult_resetIn (r : Status) : (setResult r s).resetIn = s.resetIn := rfl
@[simp] theorem setResult_draws (r : Status) : (setResult r s).draws = s.draws := rfl

/-! ## `startQuery` -/

@[simp] theorem startQuery_xId : (startQuery s).xId = s.xId := rfl
@[simp] theorem startQuery_xCmd : (startQuery s).xCmd = s.xCmd := rfl
@[simp] theorem startQuery_xNp : (startQuery s).xNp = s.xNp := rfl
@[simp] theorem startQuery_xP0 : (startQuery s).xP0 = s.xP0 := rfl
@[simp] theorem startQuery_xP1 : (startQuery s).xP1 = s.xP1 := rfl
@[simp] theorem startQuery_phase : (startQuery s).phase = s.phase := rfl
@[simp] theorem startQuery_dir : (startQuery s).dir = s.dir := rfl
@[simp] theorem startQuery_t0 : (startQuery s).t0 = clockAnswer s := rfl
@[simp] theorem startQuery_attempts : (startQuery s).attempts = 0 := rfl
@[simp] theorem startQuery_pollCnt : (startQuery s).pollCnt = s.pollCnt := rfl
@[simp] theorem startQuery_outcome : (startQuery s).outcome = s.outcome := rfl
@[simp] theorem startQuery_txbuf : (startQuery s).txbuf = s.txbuf := rfl
@[simp] theorem startQuery_rxbuf : (startQuery s).rxbuf = s.rxbuf := rfl
@[simp] theorem startQuery_resValid : (startQuery s).resValid = s.resValid := rfl
@[simp] theorem startQuery_resStatus : (startQuery s).resStatus = s.resStatus := rfl
@[simp] theorem startQuery_resId : (startQuery s).resId = s.resId := rfl
@[simp] theorem startQuery_resCmd : (startQuery s).resCmd = s.resCmd := rfl
@[simp] theorem startQuery_resNp : (startQuery s).resNp = s.resNp := rfl
@[simp] theorem startQuery_resP0 : (startQuery s).resP0 = s.resP0 := rfl
@[simp] theorem startQuery_resP1 : (startQuery s).resP1 = s.resP1 := rfl
@[simp] theorem startQuery_shadow : (startQuery s).shadow = s.shadow := rfl
@[simp] theorem startQuery_trace : (startQuery s).trace = s.trace ++ [.now (clockAnswer s)] := rfl
@[simp] theorem startQuery_timing : (startQuery s).timing = s.timing := rfl
@[simp] theorem startQuery_clock : (startQuery s).clock = clockAnswer s := rfl
@[simp] theorem startQuery_wire : (startQuery s).wire = s.wire := rfl
@[simp] theorem startQuery_rxStore : (startQuery s).rxStore = s.rxStore := rfl
@[simp] theorem startQuery_inputs : (startQuery s).inputs = s.inputs := rfl
@[simp] theorem startQuery_writes : (startQuery s).writes = s.writes := rfl
@[simp] theorem startQuery_waits : (startQuery s).waits = s.waits := rfl
@[simp] theorem startQuery_lapses : (startQuery s).lapses = s.lapses.tail := rfl
@[simp] theorem startQuery_resetsAfter : (startQuery s).resetsAfter = s.resetsAfter := rfl
@[simp] theorem startQuery_resetIn : (startQuery s).resetIn = s.resetIn := rfl
@[simp] theorem startQuery_draws : (startQuery s).draws = { s.draws with lapse := s.draws.lapse + 1 } := rfl

/-! ## `startAttempt` -/

@[simp] theorem startAttempt_xId : (startAttempt s).xId = s.xId := rfl
@[simp] theorem startAttempt_xCmd : (startAttempt s).xCmd = s.xCmd := rfl
@[simp] theorem startAttempt_xNp : (startAttempt s).xNp = s.xNp := rfl
@[simp] theorem startAttempt_xP0 : (startAttempt s).xP0 = s.xP0 := rfl
@[simp] theorem startAttempt_xP1 : (startAttempt s).xP1 = s.xP1 := rfl
@[simp] theorem startAttempt_phase : (startAttempt s).phase = s.phase := rfl
@[simp] theorem startAttempt_dir : (startAttempt s).dir = s.dir := rfl
@[simp] theorem startAttempt_t0 : (startAttempt s).t0 = s.t0 := rfl
@[simp] theorem startAttempt_attempts : (startAttempt s).attempts = s.attempts + 1 := rfl
@[simp] theorem startAttempt_pollCnt : (startAttempt s).pollCnt = 0 := rfl
@[simp] theorem startAttempt_outcome : (startAttempt s).outcome = .timeout := rfl
@[simp] theorem startAttempt_txbuf : (startAttempt s).txbuf = s.txbuf := rfl
@[simp] theorem startAttempt_rxbuf : (startAttempt s).rxbuf = s.rxbuf := rfl
@[simp] theorem startAttempt_resValid : (startAttempt s).resValid = s.resValid := rfl
@[simp] theorem startAttempt_resStatus : (startAttempt s).resStatus = s.resStatus := rfl
@[simp] theorem startAttempt_resId : (startAttempt s).resId = s.resId := rfl
@[simp] theorem startAttempt_resCmd : (startAttempt s).resCmd = s.resCmd := rfl
@[simp] theorem startAttempt_resNp : (startAttempt s).resNp = s.resNp := rfl
@[simp] theorem startAttempt_resP0 : (startAttempt s).resP0 = s.resP0 := rfl
@[simp] theorem startAttempt_resP1 : (startAttempt s).resP1 = s.resP1 := rfl
@[simp] theorem startAttempt_shadow : (startAttempt s).shadow = s.shadow := rfl
@[simp] theorem startAttempt_trace : (startAttempt s).trace = s.trace := rfl
@[simp] theorem startAttempt_timing : (startAttempt s).timing = s.timing := rfl
@[simp] theorem startAttempt_clock : (startAttempt s).clock = s.clock := rfl
@[simp] theorem startAttempt_wire : (startAttempt s).wire = s.wire := rfl
@[simp] theorem startAttempt_rxStore : (startAttempt s).rxStore = s.rxStore := rfl
@[simp] theorem startAttempt_inputs : (startAttempt s).inputs = s.inputs := rfl
@[simp] theorem startAttempt_writes : (startAttempt s).writes = s.writes := rfl
@[simp] theorem startAttempt_waits : (startAttempt s).waits = s.waits := rfl
@[simp] theorem startAttempt_lapses : (startAttempt s).lapses = s.lapses := rfl
@[simp] theorem startAttempt_resetsAfter : (startAttempt s).resetsAfter = s.resetsAfter := rfl
@[simp] theorem startAttempt_resetIn : (startAttempt s).resetIn = s.resetIn := rfl
@[simp] theorem startAttempt_draws : (startAttempt s).draws = s.draws := rfl

/-! ## `applyReset` -/

@[simp] theorem applyReset_xId : (applyReset s).xId = State.reset.xId := rfl
@[simp] theorem applyReset_xCmd : (applyReset s).xCmd = State.reset.xCmd := rfl
@[simp] theorem applyReset_xNp : (applyReset s).xNp = State.reset.xNp := rfl
@[simp] theorem applyReset_xP0 : (applyReset s).xP0 = State.reset.xP0 := rfl
@[simp] theorem applyReset_xP1 : (applyReset s).xP1 = State.reset.xP1 := rfl
@[simp] theorem applyReset_phase : (applyReset s).phase = State.reset.phase := rfl
@[simp] theorem applyReset_dir : (applyReset s).dir = State.reset.dir := rfl
@[simp] theorem applyReset_t0 : (applyReset s).t0 = State.reset.t0 := rfl
@[simp] theorem applyReset_attempts : (applyReset s).attempts = State.reset.attempts := rfl
@[simp] theorem applyReset_pollCnt : (applyReset s).pollCnt = State.reset.pollCnt := rfl
@[simp] theorem applyReset_outcome : (applyReset s).outcome = State.reset.outcome := rfl
@[simp] theorem applyReset_txbuf : (applyReset s).txbuf = State.reset.txbuf := rfl
@[simp] theorem applyReset_rxbuf : (applyReset s).rxbuf = State.reset.rxbuf := rfl
@[simp] theorem applyReset_resValid : (applyReset s).resValid = State.reset.resValid := rfl
@[simp] theorem applyReset_resStatus : (applyReset s).resStatus = State.reset.resStatus := rfl
@[simp] theorem applyReset_resId : (applyReset s).resId = State.reset.resId := rfl
@[simp] theorem applyReset_resCmd : (applyReset s).resCmd = State.reset.resCmd := rfl
@[simp] theorem applyReset_resNp : (applyReset s).resNp = State.reset.resNp := rfl
@[simp] theorem applyReset_resP0 : (applyReset s).resP0 = State.reset.resP0 := rfl
@[simp] theorem applyReset_resP1 : (applyReset s).resP1 = State.reset.resP1 := rfl
@[simp] theorem applyReset_shadow : (applyReset s).shadow = State.reset.shadow := rfl
@[simp] theorem applyReset_trace : (applyReset s).trace = State.reset.trace := rfl
@[simp] theorem applyReset_timing : (applyReset s).timing = s.timing := rfl
@[simp] theorem applyReset_clock : (applyReset s).clock = s.clock := rfl
@[simp] theorem applyReset_wire : (applyReset s).wire = s.wire ++ cutShort s := rfl
@[simp] theorem applyReset_rxStore : (applyReset s).rxStore = s.rxStore := rfl
@[simp] theorem applyReset_inputs : (applyReset s).inputs = s.inputs := rfl
@[simp] theorem applyReset_writes : (applyReset s).writes = if s.phase = .tx then s.writes.tail else s.writes := rfl
@[simp] theorem applyReset_waits : (applyReset s).waits = s.waits := rfl
@[simp] theorem applyReset_lapses : (applyReset s).lapses = s.lapses := rfl
@[simp] theorem applyReset_resetsAfter : (applyReset s).resetsAfter = s.resetsAfter.tail := rfl
@[simp] theorem applyReset_resetIn : (applyReset s).resetIn = s.resetsAfter.head? := rfl
@[simp] theorem applyReset_draws : (applyReset s).draws =
    if s.phase = .tx then { s.draws with write := s.draws.write + 1 } else s.draws := rfl

/-! ## `dropArrival` -/

@[simp] theorem dropArrival_xId : (dropArrival s).xId = s.xId := by
  unfold dropArrival; split <;> rfl
@[simp] theorem dropArrival_xCmd : (dropArrival s).xCmd = s.xCmd := by
  unfold dropArrival; split <;> rfl
@[simp] theorem dropArrival_xNp : (dropArrival s).xNp = s.xNp := by
  unfold dropArrival; split <;> rfl
@[simp] theorem dropArrival_xP0 : (dropArrival s).xP0 = s.xP0 := by
  unfold dropArrival; split <;> rfl
@[simp] theorem dropArrival_xP1 : (dropArrival s).xP1 = s.xP1 := by
  unfold dropArrival; split <;> rfl
@[simp] theorem dropArrival_phase : (dropArrival s).phase = s.phase := by
  unfold dropArrival; split <;> rfl
@[simp] theorem dropArrival_dir : (dropArrival s).dir = s.dir := by
  unfold dropArrival; split <;> rfl
@[simp] theorem dropArrival_t0 : (dropArrival s).t0 = s.t0 := by
  unfold dropArrival; split <;> rfl
@[simp] theorem dropArrival_attempts : (dropArrival s).attempts = s.attempts := by
  unfold dropArrival; split <;> rfl
@[simp] theorem dropArrival_pollCnt : (dropArrival s).pollCnt = s.pollCnt := by
  unfold dropArrival; split <;> rfl
@[simp] theorem dropArrival_outcome : (dropArrival s).outcome = s.outcome := by
  unfold dropArrival; split <;> rfl
@[simp] theorem dropArrival_txbuf : (dropArrival s).txbuf = s.txbuf := by
  unfold dropArrival; split <;> rfl
@[simp] theorem dropArrival_rxbuf : (dropArrival s).rxbuf = s.rxbuf := by
  unfold dropArrival; split <;> rfl
@[simp] theorem dropArrival_resValid : (dropArrival s).resValid = s.resValid := by
  unfold dropArrival; split <;> rfl
@[simp] theorem dropArrival_resStatus : (dropArrival s).resStatus = s.resStatus := by
  unfold dropArrival; split <;> rfl
@[simp] theorem dropArrival_resId : (dropArrival s).resId = s.resId := by
  unfold dropArrival; split <;> rfl
@[simp] theorem dropArrival_resCmd : (dropArrival s).resCmd = s.resCmd := by
  unfold dropArrival; split <;> rfl
@[simp] theorem dropArrival_resNp : (dropArrival s).resNp = s.resNp := by
  unfold dropArrival; split <;> rfl
@[simp] theorem dropArrival_resP0 : (dropArrival s).resP0 = s.resP0 := by
  unfold dropArrival; split <;> rfl
@[simp] theorem dropArrival_resP1 : (dropArrival s).resP1 = s.resP1 := by
  unfold dropArrival; split <;> rfl
@[simp] theorem dropArrival_shadow : (dropArrival s).shadow = s.shadow := by
  unfold dropArrival; split <;> rfl
@[simp] theorem dropArrival_trace : (dropArrival s).trace = s.trace := by
  unfold dropArrival; split <;> rfl
@[simp] theorem dropArrival_timing : (dropArrival s).timing = s.timing := by
  unfold dropArrival; split <;> rfl
@[simp] theorem dropArrival_clock : (dropArrival s).clock = s.clock := by
  unfold dropArrival; split <;> rfl
@[simp] theorem dropArrival_wire : (dropArrival s).wire = s.wire := by
  unfold dropArrival; split <;> rfl
@[simp] theorem dropArrival_rxStore : (dropArrival s).rxStore = s.rxStore := by
  unfold dropArrival; split <;> rfl
@[simp] theorem dropArrival_writes : (dropArrival s).writes = s.writes := by
  unfold dropArrival; split <;> rfl
@[simp] theorem dropArrival_waits : (dropArrival s).waits = s.waits := by
  unfold dropArrival; split <;> rfl
@[simp] theorem dropArrival_lapses : (dropArrival s).lapses = s.lapses := by
  unfold dropArrival; split <;> rfl
@[simp] theorem dropArrival_resetsAfter : (dropArrival s).resetsAfter = s.resetsAfter := by
  unfold dropArrival; split <;> rfl
@[simp] theorem dropArrival_resetIn : (dropArrival s).resetIn = s.resetIn := by
  unfold dropArrival; split <;> rfl

/-! ## `updateShadow` -/

@[simp] theorem updateShadow_xId (w : WriteSpec) : (updateShadow w s).xId = s.xId := by
  unfold updateShadow; split <;> [rfl; (split <;> rfl)]
@[simp] theorem updateShadow_xCmd (w : WriteSpec) : (updateShadow w s).xCmd = s.xCmd := by
  unfold updateShadow; split <;> [rfl; (split <;> rfl)]
@[simp] theorem updateShadow_xNp (w : WriteSpec) : (updateShadow w s).xNp = s.xNp := by
  unfold updateShadow; split <;> [rfl; (split <;> rfl)]
@[simp] theorem updateShadow_xP0 (w : WriteSpec) : (updateShadow w s).xP0 = s.xP0 := by
  unfold updateShadow; split <;> [rfl; (split <;> rfl)]
@[simp] theorem updateShadow_xP1 (w : WriteSpec) : (updateShadow w s).xP1 = s.xP1 := by
  unfold updateShadow; split <;> [rfl; (split <;> rfl)]
@[simp] theorem updateShadow_phase (w : WriteSpec) : (updateShadow w s).phase = s.phase := by
  unfold updateShadow; split <;> [rfl; (split <;> rfl)]
@[simp] theorem updateShadow_dir (w : WriteSpec) : (updateShadow w s).dir = s.dir := by
  unfold updateShadow; split <;> [rfl; (split <;> rfl)]
@[simp] theorem updateShadow_t0 (w : WriteSpec) : (updateShadow w s).t0 = s.t0 := by
  unfold updateShadow; split <;> [rfl; (split <;> rfl)]
@[simp] theorem updateShadow_attempts (w : WriteSpec) : (updateShadow w s).attempts = s.attempts := by
  unfold updateShadow; split <;> [rfl; (split <;> rfl)]
@[simp] theorem updateShadow_pollCnt (w : WriteSpec) : (updateShadow w s).pollCnt = s.pollCnt := by
  unfold updateShadow; split <;> [rfl; (split <;> rfl)]
@[simp] theorem updateShadow_outcome (w : WriteSpec) : (updateShadow w s).outcome = s.outcome := by
  unfold updateShadow; split <;> [rfl; (split <;> rfl)]
@[simp] theorem updateShadow_txbuf (w : WriteSpec) : (updateShadow w s).txbuf = s.txbuf := by
  unfold updateShadow; split <;> [rfl; (split <;> rfl)]
@[simp] theorem updateShadow_rxbuf (w : WriteSpec) : (updateShadow w s).rxbuf = s.rxbuf := by
  unfold updateShadow; split <;> [rfl; (split <;> rfl)]
@[simp] theorem updateShadow_resValid (w : WriteSpec) : (updateShadow w s).resValid = s.resValid := by
  unfold updateShadow; split <;> [rfl; (split <;> rfl)]
@[simp] theorem updateShadow_resStatus (w : WriteSpec) : (updateShadow w s).resStatus = s.resStatus := by
  unfold updateShadow; split <;> [rfl; (split <;> rfl)]
@[simp] theorem updateShadow_resId (w : WriteSpec) : (updateShadow w s).resId = s.resId := by
  unfold updateShadow; split <;> [rfl; (split <;> rfl)]
@[simp] theorem updateShadow_resCmd (w : WriteSpec) : (updateShadow w s).resCmd = s.resCmd := by
  unfold updateShadow; split <;> [rfl; (split <;> rfl)]
@[simp] theorem updateShadow_resNp (w : WriteSpec) : (updateShadow w s).resNp = s.resNp := by
  unfold updateShadow; split <;> [rfl; (split <;> rfl)]
@[simp] theorem updateShadow_resP0 (w : WriteSpec) : (updateShadow w s).resP0 = s.resP0 := by
  unfold updateShadow; split <;> [rfl; (split <;> rfl)]
@[simp] theorem updateShadow_resP1 (w : WriteSpec) : (updateShadow w s).resP1 = s.resP1 := by
  unfold updateShadow; split <;> [rfl; (split <;> rfl)]
@[simp] theorem updateShadow_trace (w : WriteSpec) : (updateShadow w s).trace = s.trace := by
  unfold updateShadow; split <;> [rfl; (split <;> rfl)]
@[simp] theorem updateShadow_timing (w : WriteSpec) : (updateShadow w s).timing = s.timing := by
  unfold updateShadow; split <;> [rfl; (split <;> rfl)]
@[simp] theorem updateShadow_clock (w : WriteSpec) : (updateShadow w s).clock = s.clock := by
  unfold updateShadow; split <;> [rfl; (split <;> rfl)]
@[simp] theorem updateShadow_wire (w : WriteSpec) : (updateShadow w s).wire = s.wire := by
  unfold updateShadow; split <;> [rfl; (split <;> rfl)]
@[simp] theorem updateShadow_rxStore (w : WriteSpec) : (updateShadow w s).rxStore = s.rxStore := by
  unfold updateShadow; split <;> [rfl; (split <;> rfl)]
@[simp] theorem updateShadow_inputs (w : WriteSpec) : (updateShadow w s).inputs = s.inputs := by
  unfold updateShadow; split <;> [rfl; (split <;> rfl)]
@[simp] theorem updateShadow_writes (w : WriteSpec) : (updateShadow w s).writes = s.writes := by
  unfold updateShadow; split <;> [rfl; (split <;> rfl)]
@[simp] theorem updateShadow_waits (w : WriteSpec) : (updateShadow w s).waits = s.waits := by
  unfold updateShadow; split <;> [rfl; (split <;> rfl)]
@[simp] theorem updateShadow_lapses (w : WriteSpec) : (updateShadow w s).lapses = s.lapses := by
  unfold updateShadow; split <;> [rfl; (split <;> rfl)]
@[simp] theorem updateShadow_resetsAfter (w : WriteSpec) : (updateShadow w s).resetsAfter = s.resetsAfter := by
  unfold updateShadow; split <;> [rfl; (split <;> rfl)]
@[simp] theorem updateShadow_resetIn (w : WriteSpec) : (updateShadow w s).resetIn = s.resetIn := by
  unfold updateShadow; split <;> [rfl; (split <;> rfl)]
@[simp] theorem updateShadow_draws (w : WriteSpec) : (updateShadow w s).draws = s.draws := by
  unfold updateShadow; split <;> [rfl; (split <;> rfl)]

/-! ## Compositions -/

@[simp] theorem transmit_eq : transmit s = writeLine (setWriteMode s) := rfl
@[simp] theorem endWithoutReply_eq (r : Status) : endWithoutReply r s = dropReply (setResult r s) := rfl
@[simp] theorem raise_eq (e : Status) : raise e s = dropReply (setResult e s) := rfl
@[simp] theorem endWithReply_eq (r : Reply) : endWithReply r s = setReply r (setResult .ok s) := rfl

/-! ## `settlePhase` -/

@[simp] theorem settlePhase_xId : (settlePhase s).xId = s.xId := rfl
@[simp] theorem settlePhase_xCmd : (settlePhase s).xCmd = s.xCmd := rfl
@[simp] theorem settlePhase_xNp : (settlePhase s).xNp = s.xNp := rfl
@[simp] theorem settlePhase_xP0 : (settlePhase s).xP0 = s.xP0 := rfl
@[simp] theorem settlePhase_xP1 : (settlePhase s).xP1 = s.xP1 := rfl
@[simp] theorem settlePhase_phase : (settlePhase s).phase = .poll := rfl
@[simp] theorem settlePhase_dir : (settlePhase s).dir = .read := rfl
@[simp] theorem settlePhase_t0 : (settlePhase s).t0 = s.t0 := rfl
@[simp] theorem settlePhase_attempts : (settlePhase s).attempts = s.attempts := rfl
@[simp] theorem settlePhase_pollCnt : (settlePhase s).pollCnt = s.pollCnt := rfl
@[simp] theorem settlePhase_outcome : (settlePhase s).outcome = s.outcome := rfl
@[simp] theorem settlePhase_txbuf : (settlePhase s).txbuf = s.txbuf := rfl
@[simp] theorem settlePhase_rxbuf : (settlePhase s).rxbuf = s.rxbuf := rfl
@[simp] theorem settlePhase_resValid : (settlePhase s).resValid = s.resValid := rfl
@[simp] theorem settlePhase_resStatus : (settlePhase s).resStatus = s.resStatus := rfl
@[simp] theorem settlePhase_resId : (settlePhase s).resId = s.resId := rfl
@[simp] theorem settlePhase_resCmd : (settlePhase s).resCmd = s.resCmd := rfl
@[simp] theorem settlePhase_resNp : (settlePhase s).resNp = s.resNp := rfl
@[simp] theorem settlePhase_resP0 : (settlePhase s).resP0 = s.resP0 := rfl
@[simp] theorem settlePhase_resP1 : (settlePhase s).resP1 = s.resP1 := rfl
@[simp] theorem settlePhase_shadow : (settlePhase s).shadow = s.shadow := rfl
@[simp] theorem settlePhase_trace : (settlePhase s).trace = s.trace ++ [.wait s.timing.tSettle] ++ [.setReadMode] := rfl
@[simp] theorem settlePhase_timing : (settlePhase s).timing = s.timing := rfl
@[simp] theorem settlePhase_clock : (settlePhase s).clock = s.clock + s.timing.tSettle + waitExcess s := rfl
@[simp] theorem settlePhase_wire : (settlePhase s).wire = s.wire := rfl
@[simp] theorem settlePhase_rxStore : (settlePhase s).rxStore = s.rxStore := rfl
@[simp] theorem settlePhase_inputs : (settlePhase s).inputs = s.inputs := rfl
@[simp] theorem settlePhase_writes : (settlePhase s).writes = s.writes := rfl
@[simp] theorem settlePhase_waits : (settlePhase s).waits = s.waits.tail := rfl
@[simp] theorem settlePhase_lapses : (settlePhase s).lapses = s.lapses := rfl
@[simp] theorem settlePhase_resetsAfter : (settlePhase s).resetsAfter = s.resetsAfter := rfl
@[simp] theorem settlePhase_resetIn : (settlePhase s).resetIn = s.resetIn := rfl
@[simp] theorem settlePhase_draws : (settlePhase s).draws = { s.draws with wait := s.draws.wait + 1 } := rfl

/-! ## What the primitives will answer -/

@[simp] theorem writeAnswer_setWriteMode : writeAnswer (setWriteMode s) = writeAnswer s := rfl
@[simp] theorem writeAnswer_startAttempt : writeAnswer (startAttempt s) = writeAnswer s := rfl
@[simp] theorem writeAnswer_accept (c : PortCmd) : writeAnswer (accept c s) = writeAnswer s := rfl
@[simp] theorem writeAnswer_startQuery : writeAnswer (startQuery s) = writeAnswer s := rfl

@[simp] theorem writeAnswer_readClock : writeAnswer (readClock s) = writeAnswer s := rfl

/-- The clock never goes back (R10). -/
theorem clock_le_clockAnswer : s.clock ≤ clockAnswer s := Nat.le_add_right _ _

/-- What the next `now()` answers depends on the clock, the script and its counter alone. -/
theorem clockAnswer_congr {s t : State} (hc : t.clock = s.clock) (h : t.lapses = s.lapses)
    (hd : t.draws.lapse = s.draws.lapse) : clockAnswer t = clockAnswer s := by
  unfold clockAnswer lapse; rw [hc, h, hd]

/-- What the next `now()` answers, when the state says how much time has passed. -/
theorem clockAnswer_of_lapse {s : State} {d : Nat} {later : List Nat} (h : s.lapses = d :: later) :
    clockAnswer s = s.clock + d := by
  unfold clockAnswer lapse; rw [h]

@[simp] theorem clockAnswer_accept (c : PortCmd) : clockAnswer (accept c s) = clockAnswer s := rfl

/-- The answer of the next `write` depends on the script and its counter alone. -/
theorem writeAnswer_congr {s t : State} (h : t.writes = s.writes) (hd : t.draws.write = s.draws.write) :
    writeAnswer t = writeAnswer s := by
  unfold writeAnswer; rw [h, hd]

/-- A poll that meets an arrival takes it from the inputs. -/
theorem dropArrival_of_arrive {s : State} {bytes : List Byte} {rest : List Input}
    (h : s.inputs = .arrive bytes :: rest) : dropArrival s = { s with inputs := rest } := by
  unfold dropArrival; rw [h]

/-- What a poll meets, when the state says what arrives. -/
theorem arrival_of_arrive {s : State} {bytes : List Byte} {rest : List Input}
    (h : s.inputs = .arrive bytes :: rest) : arrival s = bytes := by
  unfold arrival; rw [h]

end Sys2Proof.Machine
end

