-- ==== Sys2Proof/Laws/Codec.lean ====
section
/-! SUPPORT. The frame codec, one lemma per function: the byte halves of a parameter, the checksum, the command codes,
the frames `ENCODE` builds and `DECODE` accepts, and the two places where an instruction meets them. -/

namespace Sys2Proof

/-! ## Parameters -/

theorem lo8_toNat (v : Word) : (lo8 v).toNat = v.toNat % 256 := by
  simp [lo8]

theorem hi8_toNat (v : Word) : (hi8 v).toNat = v.toNat / 256 := by
  have := v.isLt
  simp [hi8]; omega

@[simp] theorem joinBytes_lo8_hi8 (v : Word) : joinBytes (lo8 v) (hi8 v) = v := by
  apply BitVec.eq_of_toNat_eq
  have := v.isLt
  rw [joinBytes, lo8_toNat, hi8_toNat]; simp; omega

@[simp] theorem lo8_joinBytes (lo hi : Byte) : lo8 (joinBytes lo hi) = lo := by
  apply BitVec.eq_of_toNat_eq
  have := lo.isLt; have := hi.isLt
  rw [lo8_toNat, joinBytes]; simp; omega

@[simp] theorem hi8_joinBytes (lo hi : Byte) : hi8 (joinBytes lo hi) = hi := by
  apply BitVec.eq_of_toNat_eq
  have := lo.isLt; have := hi.isLt
  rw [hi8_toNat, joinBytes]; simp; omega

/-! ## Checksum -/

/-- Two regions have one checksum exactly when their sums agree modulo 256. -/
theorem checksum_eq_iff (a b : List Byte) : checksum a = checksum b ↔ byteSum a % 256 = byteSum b % 256 := by
  unfold checksum
  rw [BitVec.not_inj, ← BitVec.toNat_inj]
  simp

/-- The byte sum after one byte is changed. -/
theorem byteSum_set (b : List Byte) (i : Nat) (x : Byte) (h : i < b.length) :
    byteSum (b.set i x) + (b.getD i 0).toNat = byteSum b + x.toNat := by
  induction b generalizing i with
  | nil => simp at h
  | cons a rest ih =>
    cases i with
    | zero => simp [byteSum]; omega
    | succ i =>
      have := ih i (by simpa using h)
      simp [byteSum] at this ⊢; omega

/-- The checksum sees a change of one byte. -/
theorem checksum_set_ne {b : List Byte} {i : Nat} {x : Byte} (h : i < b.length) (hx : x ≠ b.getD i 0) :
    checksum (b.set i x) ≠ checksum b := by
  rw [Ne, checksum_eq_iff]
  have hs := byteSum_set b i x h
  have hne : x.toNat ≠ (b.getD i 0).toNat := fun e => hx (BitVec.eq_of_toNat_eq e)
  have := x.isLt; have := (b.getD i 0).isLt
  omega

/-! ## Command codes -/

@[simp] theorem Cmd.ofCode_code (c : Cmd) : Cmd.ofCode c.code = some c := by cases c <;> rfl

/-- A code stands for at most one command. -/
theorem Cmd.code_of_ofCode {b : Byte} {c : Cmd} (h : Cmd.ofCode b = some c) : c.code = b := by
  apply BitVec.eq_of_toNat_eq
  unfold Cmd.ofCode at h
  split at h <;> simp at h <;> subst h <;> simp [Cmd.code, *]

theorem Cmd.code_injective {c d : Cmd} (h : c.code = d.code) : c = d := by
  have := Cmd.ofCode_code c
  rw [h, Cmd.ofCode_code] at this
  exact (Option.some.inj this).symm

/-- A parameter count is 0, 1 or 2. -/
theorem Args.np_cases (a : Args) : a.np = 0 ∨ a.np = 1 ∨ a.np = 2 := by cases a <;> simp [Args.np]

theorem Cmd.requestNp_cases (c : Cmd) : c.requestNp = 0 ∨ c.requestNp = 1 ∨ c.requestNp = 2 := by
  cases c <;> simp [Cmd.requestNp]

/-- A read command has no request parameter. -/
theorem Cmd.requestNp_of_read {c : Cmd} (h : c.kind = .read) : c.requestNp = 0 := by
  cases c <;> simp_all [Cmd.kind, Cmd.requestNp]

/-! ## Frames -/

@[simp] theorem frameOf_length (id code : Byte) (args : Args) :
    (frameOf id code args).length = 6 + 2 * args.np.toNat := by
  cases args <;> simp [frameOf, frameWith, frameBody, Args.bytes, Args.np]

theorem frameOf_ne_nil (id code : Byte) (args : Args) : frameOf id code args ≠ [] := by
  simp [frameOf, frameWith]

/-- A frame says its ID, its code and its parameters. -/
theorem frameOf_inj {id id' code code' : Byte} {a a' : Args} (h : frameOf id code a = frameOf id' code' a') :
    id = id' ∧ code = code' ∧ a = a' := by
  have hlen := congrArg List.length h
  have inj : ∀ {p q : Word}, lo8 p = lo8 q → hi8 p = hi8 q → p = q := fun {p q} h1 h2 => by
    rw [← joinBytes_lo8_hi8 p, ← joinBytes_lo8_hi8 q, h1, h2]
  cases a <;> cases a' <;> simp [Args.np] at hlen <;>
    simp [frameOf, frameWith, frameBody, Args.bytes, Args.np] at h
  · exact ⟨h.1, h.2.1, rfl⟩
  · exact ⟨h.1, h.2.1, by rw [inj h.2.2.1 h.2.2.2.1]⟩
  · exact ⟨h.1, h.2.1, by rw [inj h.2.2.1 h.2.2.2.1, inj h.2.2.2.2.1 h.2.2.2.2.2.1]⟩

namespace Machine

/-- `ENCODE` of a command with its own count, from latches that hold its parameters. -/
theorem encodeFrame_args {c : Cmd} {args : Args} (id : Byte) {p0 p1 : Word} (hnp : args.np = c.requestNp)
    (h0 : ∀ p, args.first = some p → p0 = p) (h1 : ∀ p, args.second = some p → p1 = p) :
    encodeFrame id c.code args.np p0 p1 = .ok (frameOf id c.code args) := by
  cases args
  · simp [encodeFrame, Args.np, ← hnp, frameOf, frameWith, frameBody, Args.bytes]
  · simp [encodeFrame, Args.np, ← hnp, frameOf, frameWith, frameBody, Args.bytes, h0 _ rfl]
  · simp [encodeFrame, Args.np, ← hnp, frameOf, frameWith, frameBody, Args.bytes, h0 _ rfl, h1 _ rfl]

/-- Everything `ENCODE` can answer: the one error, or the frame of the code's command and its count. -/
theorem encodeFrame_cases (id code : Byte) (np : BitVec 2) (p0 p1 : Word) :
    (encodeFrame id code np p0 p1 = .error .invalidParameterCount ∧
      ∀ c, Cmd.ofCode code = some c → np ≠ c.requestNp) ∨
    ∃ c args, Cmd.ofCode code = some c ∧ args.np = np ∧ np = c.requestNp ∧
      (∀ p, args.first = some p → p = p0) ∧ (∀ p, args.second = some p → p = p1) ∧
      encodeFrame id code np p0 p1 = .ok (frameOf id code args) := by
  cases hc : Cmd.ofCode code with
  | none => exact .inl ⟨by simp [encodeFrame, hc], by simp⟩
  | some c =>
    by_cases hnp : np = c.requestNp
    · right
      have hcode := Cmd.code_of_ofCode hc
      subst hcode
      rcases Cmd.requestNp_cases c with h | h | h
      · refine ⟨c, .zero, rfl, by simp [Args.np, hnp, h], hnp, by simp [Args.first], by simp [Args.second], ?_⟩
        rw [hnp, h]
        exact encodeFrame_args (args := .zero) id (by simp [Args.np, h]) (by simp [Args.first]) (by simp [Args.second])
      · refine ⟨c, .one p0, rfl, by simp [Args.np, hnp, h], hnp, by simp [Args.first], by simp [Args.second], ?_⟩
        rw [hnp, h]
        exact encodeFrame_args (args := .one p0) id (by simp [Args.np, h]) (by simp [Args.first])
          (by simp [Args.second])
      · refine ⟨c, .two p0 p1, rfl, by simp [Args.np, hnp, h], hnp, by simp [Args.first], by simp [Args.second], ?_⟩
        rw [hnp, h]
        exact encodeFrame_args (args := .two p0 p1) id (by simp [Args.np, h]) (by simp [Args.first])
          (by simp [Args.second])
    · exact .inl ⟨by simp [encodeFrame, hc, hnp], by simp [hnp]⟩

/-- `DECODE` reads a frame of a catalog code. -/
theorem decodeFrame_frameOf (id : Byte) {code : Byte} (args : Args) (h : (Cmd.ofCode code).isSome = true) :
    decodeFrame (frameOf id code args) code = .ok ⟨id, code, args⟩ := by
  have hc : Cmd.ofCode code ≠ none := by intro h'; simp [h'] at h
  cases args <;>
    simp [decodeFrame, frameOf, frameWith, frameBody, Args.bytes, Args.np, byteAt, summedRegion, Config.minFrame,
      Config.header, hc]

/-- What `DECODE` accepts is a frame of the expected code. -/
theorem decodeFrame_ok {buf : List Byte} {expected : Byte} {r : Reply} (h : decodeFrame buf expected = .ok r) :
    r.code = expected ∧ (Cmd.ofCode expected).isSome = true ∧ buf = frameOf r.id expected r.args := by
  unfold decodeFrame at h
  simp only at h
  split_ifs at h with h1 h2 h3 h4 h5 h6 h7 h8 h9 <;> simp only [DecodeResult.ok.injEq] at h <;> subst h
  · simp only [h8] at h4
    have hl : buf.length = 6 := by omega
    match buf, hl with
    | [b0, b1, b2, b3, b4, b5], _ =>
      simp [byteAt, Config.header, summedRegion] at h2 h5 h6 h7 h8 ⊢
      have e3 : b3 = 3 := BitVec.eq_of_toNat_eq (by simpa using h8)
      subst e3
      simp [frameOf, frameWith, frameBody, Args.bytes, Args.np, Config.header, h2, h5, h6]
      rw [← h6]; exact Option.isSome_iff_ne_none.mpr h7
  · simp only [h9] at h4
    have hl : buf.length = 8 := by omega
    match buf, hl with
    | [b0, b1, b2, b3, b4, b5, b6, b7], _ =>
      simp [byteAt, Config.header, summedRegion] at h2 h5 h6 h7 h9 ⊢
      have e3 : b3 = 5 := BitVec.eq_of_toNat_eq (by simpa using h9)
      subst e3
      simp [frameOf, frameWith, frameBody, Args.bytes, Args.np, Config.header, h2, h5, h6]
      rw [← h6]; exact Option.isSome_iff_ne_none.mpr h7
  · have h10 : (byteAt buf 3).toNat = 7 := by omega
    simp only [h10] at h4
    have hl : buf.length = 10 := by omega
    match buf, hl with
    | [b0, b1, b2, b3, b4, b5, b6, b7, b8, b9], _ =>
      simp [byteAt, Config.header, summedRegion] at h2 h5 h6 h7 h10 ⊢
      have e3 : b3 = 7 := BitVec.eq_of_toNat_eq (by simpa using h10)
      subst e3
      simp [frameOf, frameWith, frameBody, Args.bytes, Args.np, Config.header, h2, h5, h6]
      rw [← h6]; exact Option.isSome_iff_ne_none.mpr h7

/-- The three verdicts of `DECODE`, by the buffer. -/
theorem decodeFrame_cases (buf : List Byte) (expected : Byte) :
    (buf.length < 6 ∧ decodeFrame buf expected = .empty) ∨
    (6 ≤ buf.length ∧ ∃ r, decodeFrame buf expected = .ok r) ∨
    (6 ≤ buf.length ∧ decodeFrame buf expected = .corrupt) := by
  by_cases h : buf.length < 6
  · exact .inl ⟨h, by simp [decodeFrame, Config.minFrame, h]⟩
  · refine .inr ?_
    have h6 : 6 ≤ buf.length := by omega
    cases hd : decodeFrame buf expected with
    | ok r => exact .inl ⟨h6, r, rfl⟩
    | corrupt => exact .inr ⟨h6, rfl⟩
    | empty =>
      exfalso
      unfold decodeFrame at hd
      simp only at hd
      split_ifs at hd with h1
      rw [Config.minFrame] at h1; omega

/-- What a poll accepts is one frame of the query's code with its reply count. -/
theorem acceptedReply_iff {k : Option CmdSpec} {code : Byte} {bytes : List Byte} {r : Reply} :
    acceptedReply k code bytes = some r ↔
      r.code = code ∧ (Cmd.ofCode code).isSome = true ∧ replyNpOf k = some r.args.np ∧
        bytes = frameOf r.id code r.args := by
  unfold acceptedReply
  constructor
  · intro h
    split at h
    · rename_i r' hd
      split_ifs at h with hnp
      simp only [Option.some.injEq] at h
      subst h
      obtain ⟨h1, h2, h3⟩ := decodeFrame_ok hd
      exact ⟨h1, h2, hnp, h3⟩
    · simp at h
  · rintro ⟨h1, h2, h3, h4⟩
    rw [h4, decodeFrame_frameOf _ _ h2]
    simp only [h3, if_true]
    cases r; simp_all

end Machine

/-! ## Instructions -/

/-- An instruction's bytes are a frame of its fields. -/
theorem encode_eq (i : Instr) :
    encode i = frameWith i.fields.id i.fields.cmd.code i.fields.args
      (i.fields.chk.getD (checksum (frameBody i.fields.id i.fields.cmd.code i.fields.args))) := by
  cases i <;> rfl

/-- A request row is its fields, and its count is its command's. -/
theorem Instr.request_fields {i : Instr} (h : i.isReply = false) :
    i.fields.chk = none ∧ i.fields.args.np = i.fields.cmd.requestNp ∧ encode i =
      frameOf i.fields.id i.fields.cmd.code i.fields.args := by
  cases i <;> first | exact ⟨rfl, rfl, rfl⟩ | simp [Instr.isReply, Instr.fields] at h

end Sys2Proof
end

