-- ==== Sys2Proof/Laws/Operands.lean ====
section
/-! SUPPORT. What the range checks and the readings of the operands say, in the document's own numbers; and the
constraints of the timing parameters. -/

namespace Sys2Proof.Machine

/-- The signed reading of a pattern is that of its bit vector (R9). -/
theorem s16_eq_toInt (v : Word) : s16 v = v.toInt := by
  unfold s16
  rw [BitVec.toInt_eq_toNat_cond]
  split_ifs <;> omega

theorem moveInRange_iff (p d : Word) : moveInRange p d = true ↔ p.toNat ≤ 1000 ∧ d.toNat ≤ 30000 := by
  simp only [moveInRange, Bool.and_eq_true, decide_eq_true_eq]; exact Iff.rfl

theorem offsetOk_iff (v : Word) : offsetOk v = true ↔ -125 ≤ v.toInt ∧ v.toInt ≤ 125 := by
  simp only [offsetOk, Bool.and_eq_true, decide_eq_true_eq, s16_eq_toInt]

theorem rotationLimitsOk_iff (l h : Word) :
    rotationLimitsOk l h = true ↔ l.toNat < h.toNat ∧ h.toNat ≤ 1000 := by
  simp only [rotationLimitsOk, Bool.and_eq_true, decide_eq_true_eq]; exact Iff.rfl

theorem voltageLimitsOk_iff (l h : Word) :
    voltageLimitsOk l h = true ↔ 4500 ≤ l.toNat ∧ l.toNat < h.toNat ∧ h.toNat ≤ 12000 := by
  simp only [voltageLimitsOk, Bool.and_eq_true, decide_eq_true_eq, and_assoc]; exact Iff.rfl

theorem tempLimitOk_iff (v : Word) : tempLimitOk v = true ↔ 50 ≤ v.toNat ∧ v.toNat ≤ 100 := by
  simp only [tempLimitOk, Bool.and_eq_true, decide_eq_true_eq]; exact Iff.rfl

theorem loadOk_iff (v : Word) : loadOk v = true ↔ v.toNat ≤ 1 := by
  simp only [loadOk, decide_eq_true_eq]; exact Iff.rfl

theorem loaded_eq (v : Word) : loaded v = decide (v.toNat ≠ 0) := by
  simp only [loaded, u16]
  by_cases h : v.toNat = 0 <;> simp [h]

end Sys2Proof.Machine

namespace Sys2Proof

theorem Timing.ok_iff (T : Timing) : T.ok = true ↔
    1 ≤ T.tSettle ∧ T.tSettle < T.ticksPerMs ∧ 1 ≤ T.nPoll ∧ T.tSettle ≤ T.settleMax ∧ T.tPoll ≤ T.pollMax ∧
      T.worstSilentAttempt < T.tBudget := by
  simp only [Timing.ok, Bool.and_eq_true, decide_eq_true_eq, and_assoc]

/-- The worst silent attempt is no shorter than what its waits ask for, so the budget is longer than that too. -/
theorem Timing.ok_asked {T : Timing} (h : T.ok = true) :
    1 ≤ T.tSettle ∧ T.tSettle < T.ticksPerMs ∧ 1 ≤ T.nPoll ∧ T.tSettle + T.nPoll * T.tPoll < T.tBudget := by
  obtain ⟨h1, h2, h3, h4, h5, h6⟩ := T.ok_iff.mp h
  have : T.nPoll * T.tPoll ≤ T.nPoll * T.pollMax := Nat.mul_le_mul_left _ h5
  unfold Timing.worstSilentAttempt at h6
  omega

/-- The parameters of the machine at hand meet the constraints, whatever they are. -/
theorem Config.timing_ok : Config.timing.ok = true := by
  rw [Timing.ok_iff]
  simp only [Config.timing, Timing.worstSilentAttempt]
  refine ⟨by omega, by omega, by omega, by omega, by omega, ?_⟩
  generalize (Config.openParam 2 + 1) * (Config.openParam 1 + Config.openParam 4) = x
  omega

end Sys2Proof
end

