-- ==== Sys2Proof/Laws/Shadow.lean ====
section
/-! SUPPORT. The shadow file: a read after a write, the canonical form, and the ranges of the fields. -/

namespace Sys2Proof.Machine

@[simp] theorem shadowGet_nil (id : Nat) : shadowGet [] id = ServoState.unwritten := rfl

/-- A read after a write of a snapshot with something written. -/
theorem shadowGet_set (l : List (Nat × ServoState)) (id j : Nat) {v : ServoState} (hv : v ≠ ServoState.unwritten) :
    shadowGet (shadowSet l id v) j = if j = id then v else shadowGet l j := by
  induction l with
  | nil => simp [shadowSet, hv, shadowGet]
  | cons e rest ih =>
    obtain ⟨k, w⟩ := e
    simp only [shadowSet, hv, if_false]
    split_ifs with h1 h2 <;> simp_all [shadowGet]

/-- What stands in the file after a write stood there before, or is what was written. -/
theorem mem_shadowSet {l : List (Nat × ServoState)} {id : Nat} {v : ServoState} {e : Nat × ServoState}
    (h : e ∈ shadowSet l id v) : e ∈ l ∨ e = (id, v) := by
  induction l with
  | nil =>
    simp only [shadowSet] at h
    split at h <;> simp_all
  | cons d rest ih =>
    obtain ⟨k, w⟩ := d
    simp only [shadowSet] at h
    split_ifs at h <;> simp_all <;> tauto

/-- An unlisted ID, or one the file lists from a higher one on, reads as unwritten. -/
theorem shadowGet_of_below {l : List (Nat × ServoState)} {lo id : Nat} (h : shadowWfFrom lo l = true)
    (hid : id < lo) : shadowGet l id = ServoState.unwritten := by
  induction l generalizing lo with
  | nil => rfl
  | cons e rest ih =>
    obtain ⟨k, w⟩ := e
    simp only [shadowWfFrom, Bool.and_eq_true, decide_eq_true_eq] at h
    obtain ⟨⟨⟨h1, -⟩, -⟩, h4⟩ := h
    rw [shadowGet, if_neg (by omega)]
    exact ih h4 (by omega)

/-- A higher start of the canonical form is a stronger claim. -/
theorem shadowWfFrom_mono {l : List (Nat × ServoState)} {lo lo' : Nat} (h : shadowWfFrom lo l = true) (hle : lo' ≤ lo) :
    shadowWfFrom lo' l = true := by
  cases l with
  | nil => rfl
  | cons e rest =>
    obtain ⟨k, w⟩ := e
    simp only [shadowWfFrom, Bool.and_eq_true, decide_eq_true_eq] at h ⊢
    exact ⟨⟨⟨by omega, h.1.1.2⟩, h.1.2⟩, h.2⟩

/-- A write of a unicast ID keeps the canonical form, from any start that is not above the ID. -/
theorem shadowWfFrom_set {l : List (Nat × ServoState)} {lo id : Nat} (v : ServoState)
    (h : shadowWfFrom lo l = true) (hlo : lo ≤ id) (hid : id ≤ 253) : shadowWfFrom lo (shadowSet l id v) = true := by
  induction l generalizing lo with
  | nil => simp only [shadowSet]; split <;> simp_all [shadowWfFrom]
  | cons e rest ih =>
    obtain ⟨k, w⟩ := e
    have h' := h
    simp only [shadowWfFrom, Bool.and_eq_true, decide_eq_true_eq] at h
    obtain ⟨⟨⟨h1, h2⟩, h3⟩, h4⟩ := h
    simp only [shadowSet]
    split_ifs with c1 c2 c3 c4
    · exact h'
    · simp only [shadowWfFrom, Bool.and_eq_true, decide_eq_true_eq]
      exact ⟨⟨⟨hlo, hid⟩, c2⟩, ⟨⟨by omega, h2⟩, h3⟩, h4⟩
    · exact shadowWfFrom_mono h4 (by omega)
    · subst c3
      simp only [shadowWfFrom, Bool.and_eq_true, decide_eq_true_eq]
      exact ⟨⟨⟨h1, h2⟩, c4⟩, h4⟩
    · simp only [shadowWfFrom, Bool.and_eq_true, decide_eq_true_eq]
      exact ⟨⟨⟨h1, h2⟩, h3⟩, ih h4 (by omega)⟩

/-- Every write of the engine keeps the canonical form. -/
theorem shadowWf_set {l : List (Nat × ServoState)} {id : Nat} (v : ServoState) (h : shadowWf l = true)
    (hid : id ≤ 253) : shadowWf (shadowSet l id v) = true :=
  shadowWfFrom_set v h (Nat.zero_le _) hid

/-- The file after reset is in canonical form. -/
theorem reset_shadow_wf : shadowWf State.reset.shadow = true := rfl

/-- Two files in canonical form that read the same are the same. -/
theorem shadow_ext_from {l m : List (Nat × ServoState)} {lo : Nat} (hl : shadowWfFrom lo l = true)
    (hm : shadowWfFrom lo m = true) (h : ∀ id, shadowGet l id = shadowGet m id) : l = m := by
  induction l generalizing lo m with
  | nil =>
    cases m with
    | nil => rfl
    | cons e rest =>
      obtain ⟨k, w⟩ := e
      have := h k
      simp only [shadowWfFrom, Bool.and_eq_true, decide_eq_true_eq] at hm
      simp [shadowGet] at this
      exact absurd this.symm hm.1.2
  | cons e rest ih =>
    obtain ⟨k, w⟩ := e
    have hl' := hl
    simp only [shadowWfFrom, Bool.and_eq_true, decide_eq_true_eq] at hl
    cases m with
    | nil =>
      have := h k
      simp [shadowGet] at this
      exact absurd this hl.1.2
    | cons e' rest' =>
      obtain ⟨k', w'⟩ := e'
      simp only [shadowWfFrom, Bool.and_eq_true, decide_eq_true_eq] at hm
      have hk : k = k' := by
        rcases Nat.lt_trichotomy k k' with hlt | heq | hgt
        · exfalso
          have := h k
          rw [shadowGet, if_pos rfl, shadowGet, if_neg (by omega),
            shadowGet_of_below hm.2 (by omega)] at this
          exact hl.1.2 this
        · exact heq
        · exfalso
          have := h k'
          rw [shadowGet, if_neg (by omega), shadowGet_of_below hl.2 (by omega), shadowGet, if_pos rfl] at this
          exact hm.1.2 this.symm
      subst hk
      have hw : w = w' := by simpa [shadowGet] using h k
      subst hw
      have hrest : rest = rest' := ih hl.2 hm.2 fun id => by
        by_cases hid : id = k
        · subst hid
          rw [shadowGet_of_below hl.2 (by omega), shadowGet_of_below hm.2 (by omega)]
        · simpa [shadowGet, hid] using h id
      rw [hrest]

/-- Equal shadow files are equal data. -/
theorem shadow_ext {l m : List (Nat × ServoState)} (hl : shadowWf l = true) (hm : shadowWf m = true)
    (h : ∀ id, shadowGet l id = shadowGet m id) : l = m := shadow_ext_from hl hm h

/-- A snapshot of a legal file is legal. -/
theorem shadowGet_legal {l : List (Nat × ServoState)} (h : ∀ e ∈ l, e.2.legal = true) (id : Nat) :
    (shadowGet l id).legal = true := by
  induction l with
  | nil => rfl
  | cons e rest ih =>
    obtain ⟨k, w⟩ := e
    rw [shadowGet]
    split
    · exact h (k, w) (by simp)
    · exact ih fun e he => h e (by simp [he])

/-! ## The updates of the write commands -/

/-- No update of a write command leaves a snapshot with nothing written. -/
theorem update_ne_unwritten {c : Cmd} {w : WriteSpec} {f : Word → Word → ServoState → ServoState}
    (hw : specOf c = .write w) (hf : w.update = some f) (p0 p1 : Word) (e : ServoState) :
    f p0 p1 e ≠ ServoState.unwritten := by
  cases c <;> simp [specOf] at hw <;> subst hw <;>
    simp [moveWriteSpec, moveStageWriteSpec, triggerSpec, stopSpec, offsetAdjustSpec, offsetCommitSpec,
      rotationLimitWriteSpec, voltageLimitWriteSpec, tempLimitWriteSpec, motorModeWriteSpec, loadWriteSpec,
      ledModeWriteSpec, ledFaultWriteSpec] at hf <;> subst hf <;>
    intro h <;> simp [ServoState.unwritten] at h

/-- An update with parameters that passed the range check keeps a snapshot legal. -/
theorem update_legal {c : Cmd} {w : WriteSpec} {f : Word → Word → ServoState → ServoState}
    (hw : specOf c = .write w) (hf : w.update = some f) {p0 p1 : Word} (hr : w.rangeOk p0 p1 = true) {e : ServoState}
    (he : e.legal = true) : (f p0 p1 e).legal = true := by
  cases c <;> simp [specOf] at hw <;> subst hw <;>
    simp [moveWriteSpec, moveStageWriteSpec, triggerSpec, stopSpec, offsetAdjustSpec, offsetCommitSpec,
      rotationLimitWriteSpec, voltageLimitWriteSpec, tempLimitWriteSpec, motorModeWriteSpec, loadWriteSpec,
      ledModeWriteSpec, ledFaultWriteSpec] at hf hr <;> subst hf <;>
    (try simp only [moveInRange_iff, offsetOk_iff, ← s16_eq_toInt, rotationLimitsOk_iff, voltageLimitsOk_iff,
      tempLimitOk_iff] at hr) <;>
    simp_all [ServoState.legal, fieldOk, limitsOk]

/-- What the end of a write command leaves of every snapshot (R31, R32). -/
theorem updateShadow_get {c : Cmd} {w : WriteSpec} (hw : specOf c = .write w) (s : State) (j : Nat) :
    shadowGet (updateShadow w s).shadow j =
      match w.update with
      | none => shadowGet s.shadow j
      | some f => if j = s.xId.toNat ∧ s.xId.toNat ≤ 253 then f s.xP0 s.xP1 (shadowGet s.shadow j)
          else shadowGet s.shadow j := by
  have h253 : Config.idMaxUnicast.toNat = 253 := rfl
  unfold updateShadow
  cases hf : w.update with
  | none => rfl
  | some f =>
    simp only [h253]
    split
    · rename_i h1
      rw [shadowGet_set _ _ _ (update_ne_unwritten hw hf _ _ _)]
      by_cases hj : j = s.xId.toNat
      · rw [if_pos hj, if_pos ⟨hj, h1⟩, hj]
      · rw [if_neg hj, if_neg fun h => hj h.1]
    · rename_i h1
      rw [if_neg fun h => h1 h.2]

end Sys2Proof.Machine
end

