-- ==== Sys2Proof/Laws/Transport.lean ====
section
/-! SUPPORT. The transitions of the sequencer, each with everything it can do, and their iteration. -/

namespace Sys2Proof.Machine

/-! ## The catalog -/

@[simp] theorem specOf_cmd (c : Cmd) : (specOf c).cmd = c := by cases c <;> rfl

@[simp] theorem specAt_code (c : Cmd) : specAt c.code = some (specOf c) := by
  simp [specAt]

/-- A code with an own part is a catalog code. -/
theorem specAt_some {code : Byte} {k : CmdSpec} (h : specAt code = some k) :
    ∃ c, Cmd.ofCode code = some c ∧ code = c.code ∧ k = specOf c := by
  unfold specAt at h
  cases hc : Cmd.ofCode code with
  | none => simp [hc] at h
  | some c => exact ⟨c, rfl, (Cmd.code_of_ofCode hc).symm, by simpa [hc] using h.symm⟩

/-- The kind of a command selects its path (R165). -/
theorem specOf_write {c : Cmd} (h : c.kind = .write) : ∃ w, specOf c = .write w := by
  cases c <;> first | exact ⟨_, rfl⟩ | simp [Cmd.kind] at h

theorem specOf_read {c : Cmd} (h : c.kind = .read) : ∃ r, specOf c = .read r := by
  cases c <;> first | exact ⟨_, rfl⟩ | simp [Cmd.kind] at h

theorem kind_of_specOf_write {c : Cmd} {w : WriteSpec} (h : specOf c = .write w) : c.kind = .write := by
  cases c <;> first | rfl | simp [specOf] at h

theorem kind_of_specOf_read {c : Cmd} {r : ReadSpec} (h : specOf c = .read r) : c.kind = .read := by
  cases c <;> first | rfl | simp [specOf] at h

/-- A reply to a read command carries a parameter (R210). -/
theorem replyNp_ne_zero {c : Cmd} {r : ReadSpec} (h : specOf c = .read r) : r.replyNp ≠ 0 := by
  cases c <;> simp [specOf] at h <;> subst h <;>
    simp [moveReadSpec, moveStageReadSpec, offsetReadSpec, rotationLimitReadSpec, voltageLimitReadSpec,
      tempLimitReadSpec, tempReadSpec, voltageReadSpec, positionReadSpec, motorModeReadSpec, loadReadSpec,
      ledModeReadSpec, ledFaultReadSpec]

/-- The typed result of a held reply (R211). -/
theorem typedResult_held {s : State} {r : ReadSpec} (hh : replyHeld s = true) (hk : specAt s.resCmd = some (.read r)) :
    typedResult s = some (r.typed s.resP0 s.resP1) := by
  simp [typedResult, hh, hk]

/-! ## Reset input -/

theorem underReset_none {f : State → State} {s : State} (h : s.resetIn = none) : underReset f s = f s := by
  simp [underReset, h]

/-- A transition is that of the engine, that of the engine with the countdown one lower, or the reset. -/
theorem underReset_cases (f : State → State) (s : State) :
    (s.resetIn = none ∧ underReset f s = f s) ∨ (s.resetIn = some 0 ∧ underReset f s = applyReset s) ∨
      ∃ n, s.resetIn = some (n + 1) ∧ underReset f s = f { s with resetIn := some n } := by
  unfold underReset
  split
  · exact .inl ⟨‹_›, rfl⟩
  · exact .inr (.inl ⟨‹_›, rfl⟩)
  · exact .inr (.inr ⟨_, ‹_›, rfl⟩)

theorem tick_none {k : Option CmdSpec} {s : State} (h : s.resetIn = none) : tick k s = transition k s :=
  underReset_none h

/-! ## `CHECK` -/

/-- Everything phase `CHECK` can do, for the command of the latches. -/
theorem checkPhase_cases {c : Cmd} {s : State} (hc : s.xCmd = c.code) :
    (s.xNp ≠ c.requestNp ∧ checkPhase (some (specOf c)) s = raise .invalidParameterCount s) ∨
    (s.xNp = c.requestNp ∧ (s.xId = 255 ∨ (specOf c).rangeOk s.xP0 s.xP1 = false) ∧
      checkPhase (some (specOf c)) s = raise .outOfRange s) ∨
    (s.xNp = c.requestNp ∧ s.xId ≠ 255 ∧ (specOf c).rangeOk s.xP0 s.xP1 = true ∧
      ∃ frame, encodeFrame s.xId s.xCmd s.xNp s.xP0 s.xP1 = .ok frame ∧
        ((∃ w, specOf c = .write w ∧
            checkPhase (some (specOf c)) s = { s with txbuf := frame, phase := .tx }) ∨
          ∃ r, specOf c = .read r ∧
            checkPhase (some (specOf c)) s = startQuery { s with txbuf := frame, phase := .tx })) := by
  by_cases hnp : s.xNp = c.requestNp
  · by_cases hid : s.xId = 255
    · exact .inr (.inl ⟨hnp, .inl hid, by simp [checkPhase, hnp, hid, Config.idInvalid]⟩)
    · cases hr : (specOf c).rangeOk s.xP0 s.xP1
      · exact .inr (.inl ⟨hnp, .inr rfl, by simp [checkPhase, hnp, hr]⟩)
      · refine .inr (.inr ⟨hnp, hid, rfl, ?_⟩)
        rcases encodeFrame_cases s.xId s.xCmd s.xNp s.xP0 s.xP1 with ⟨-, he⟩ | ⟨_, args, -, -, -, -, -, he⟩
        · exact absurd hnp (he c (by simp [hc]))
        · refine ⟨_, he, ?_⟩
          have hI : ¬ s.xId = Config.idInvalid := hid
          cases hk : specOf c with
          | write w =>
            have hcmd : w.cmd = c := by simpa [hk, CmdSpec.cmd] using specOf_cmd c
            rw [hk] at hr
            exact .inl ⟨w, rfl, by simp only [checkPhase, CmdSpec.cmd, hcmd, hnp, hI, hr]; simp [← hnp, he]⟩
          | read r =>
            have hcmd : r.cmd = c := by simpa [hk, CmdSpec.cmd] using specOf_cmd c
            rw [hk] at hr
            exact .inr ⟨r, rfl, by simp only [checkPhase, CmdSpec.cmd, hcmd, hnp, hI, hr]; simp [← hnp, he]⟩
  · exact .inl ⟨hnp, by simp [checkPhase, hnp]⟩

/-! ## `TX` -/

/-- Everything phase `TX` can do. -/
theorem txPhase_write (w : WriteSpec) (s : State) :
    ((writeAnswer s).ok = true ∧
      txPhase (some (.write w)) s = endWithoutReply .ok (updateShadow w (transmit s))) ∨
    ((writeAnswer s).ok = false ∧ txPhase (some (.write w)) s = raise .ioFailure (transmit s)) := by
  cases h : (writeAnswer s).ok <;> simp [txPhase, h]

theorem txPhase_read (r : ReadSpec) (s : State) :
    ((writeAnswer s).ok = true ∧
      txPhase (some (.read r)) s = { transmit (startAttempt s) with phase := .settle }) ∨
    ((writeAnswer s).ok = false ∧ txPhase (some (.read r)) s = raise .ioFailure (transmit (startAttempt s))) := by
  cases h : (writeAnswer s).ok <;> simp [txPhase, h]

/-! ## `POLL` -/

/-- A poll that has been made, its bytes dealt with: the count is up, the receive side is empty. -/
def polled (bytes : List Byte) (s : State) : State :=
  { s with
    pollCnt := s.pollCnt + 1
    rxbuf   := []
    rxStore := []
    trace   := s.trace ++ [.readAvailable (s.rxStore ++ bytes)] }

@[simp] theorem polled_xId (bytes : List Byte) (s : State) : (polled bytes s).xId = s.xId := rfl
@[simp] theorem polled_xCmd (bytes : List Byte) (s : State) : (polled bytes s).xCmd = s.xCmd := rfl
@[simp] theorem polled_xNp (bytes : List Byte) (s : State) : (polled bytes s).xNp = s.xNp := rfl
@[simp] theorem polled_xP0 (bytes : List Byte) (s : State) : (polled bytes s).xP0 = s.xP0 := rfl
@[simp] theorem polled_xP1 (bytes : List Byte) (s : State) : (polled bytes s).xP1 = s.xP1 := rfl
@[simp] theorem polled_phase (bytes : List Byte) (s : State) : (polled bytes s).phase = s.phase := rfl
@[simp] theorem polled_dir (bytes : List Byte) (s : State) : (polled bytes s).dir = s.dir := rfl
@[simp] theorem polled_t0 (bytes : List Byte) (s : State) : (polled bytes s).t0 = s.t0 := rfl
@[simp] theorem polled_attempts (bytes : List Byte) (s : State) : (polled bytes s).attempts = s.attempts := rfl
@[simp] theorem polled_pollCnt (bytes : List Byte) (s : State) : (polled bytes s).pollCnt = s.pollCnt + 1 := rfl
@[simp] theorem polled_outcome (bytes : List Byte) (s : State) : (polled bytes s).outcome = s.outcome := rfl
@[simp] theorem polled_txbuf (bytes : List Byte) (s : State) : (polled bytes s).txbuf = s.txbuf := rfl
@[simp] theorem polled_rxbuf (bytes : List Byte) (s : State) : (polled bytes s).rxbuf = [] := rfl
@[simp] theorem polled_resValid (bytes : List Byte) (s : State) : (polled bytes s).resValid = s.resValid := rfl
@[simp] theorem polled_resStatus (bytes : List Byte) (s : State) : (polled bytes s).resStatus = s.resStatus := rfl
@[simp] theorem polled_resId (bytes : List Byte) (s : State) : (polled bytes s).resId = s.resId := rfl
@[simp] theorem polled_resCmd (bytes : List Byte) (s : State) : (polled bytes s).resCmd = s.resCmd := rfl
@[simp] theorem polled_resNp (bytes : List Byte) (s : State) : (polled bytes s).resNp = s.resNp := rfl
@[simp] theorem polled_resP0 (bytes : List Byte) (s : State) : (polled bytes s).resP0 = s.resP0 := rfl
@[simp] theorem polled_resP1 (bytes : List Byte) (s : State) : (polled bytes s).resP1 = s.resP1 := rfl
@[simp] theorem polled_shadow (bytes : List Byte) (s : State) : (polled bytes s).shadow = s.shadow := rfl
@[simp] theorem polled_trace (bytes : List Byte) (s : State) : (polled bytes s).trace = s.trace ++ [.readAvailable (s.rxStore ++ bytes)] := rfl
@[simp] theorem polled_timing (bytes : List Byte) (s : State) : (polled bytes s).timing = s.timing := rfl
@[simp] theorem polled_clock (bytes : List Byte) (s : State) : (polled bytes s).clock = s.clock := rfl
@[simp] theorem polled_wire (bytes : List Byte) (s : State) : (polled bytes s).wire = s.wire := rfl
@[simp] theorem polled_rxStore (bytes : List Byte) (s : State) : (polled bytes s).rxStore = [] := rfl
@[simp] theorem polled_inputs (bytes : List Byte) (s : State) : (polled bytes s).inputs = s.inputs := rfl
@[simp] theorem polled_writes (bytes : List Byte) (s : State) : (polled bytes s).writes = s.writes := rfl
@[simp] theorem polled_waits (bytes : List Byte) (s : State) : (polled bytes s).waits = s.waits := rfl
@[simp] theorem polled_lapses (bytes : List Byte) (s : State) : (polled bytes s).lapses = s.lapses := rfl
@[simp] theorem polled_resetsAfter (bytes : List Byte) (s : State) : (polled bytes s).resetsAfter = s.resetsAfter := rfl
@[simp] theorem polled_resetIn (bytes : List Byte) (s : State) : (polled bytes s).resetIn = s.resetIn := rfl
@[simp] theorem polled_draws (bytes : List Byte) (s : State) : (polled bytes s).draws = s.draws := rfl

/-- The end of an attempt: the query goes on, or it ends with the attempt's error. -/
theorem endAttempt_cases (s : State) :
    (s.timing.tBudget ≤ clockAnswer s - s.t0 ∧ endAttempt s = raise s.outcome.status (readClock s)) ∨
    (clockAnswer s - s.t0 < s.timing.tBudget ∧ endAttempt s = { readClock s with phase := .tx }) := by
  by_cases h : s.timing.tBudget ≤ clockAnswer s - s.t0
  · exact .inl ⟨h, by simp [endAttempt, h]⟩
  · exact .inr ⟨by omega, by simp [endAttempt, h]⟩

/-! What both ends of an attempt share: all but the phase and the result. -/

@[simp] theorem endAttempt_xId (s : State) : (endAttempt s).xId = s.xId := by
  rcases endAttempt_cases s with ⟨-, h⟩ | ⟨-, h⟩ <;> rw [h] <;> rfl
@[simp] theorem endAttempt_xCmd (s : State) : (endAttempt s).xCmd = s.xCmd := by
  rcases endAttempt_cases s with ⟨-, h⟩ | ⟨-, h⟩ <;> rw [h] <;> rfl
@[simp] theorem endAttempt_xNp (s : State) : (endAttempt s).xNp = s.xNp := by
  rcases endAttempt_cases s with ⟨-, h⟩ | ⟨-, h⟩ <;> rw [h] <;> rfl
@[simp] theorem endAttempt_xP0 (s : State) : (endAttempt s).xP0 = s.xP0 := by
  rcases endAttempt_cases s with ⟨-, h⟩ | ⟨-, h⟩ <;> rw [h] <;> rfl
@[simp] theorem endAttempt_xP1 (s : State) : (endAttempt s).xP1 = s.xP1 := by
  rcases endAttempt_cases s with ⟨-, h⟩ | ⟨-, h⟩ <;> rw [h] <;> rfl
@[simp] theorem endAttempt_dir (s : State) : (endAttempt s).dir = s.dir := by
  rcases endAttempt_cases s with ⟨-, h⟩ | ⟨-, h⟩ <;> rw [h] <;> rfl
@[simp] theorem endAttempt_t0 (s : State) : (endAttempt s).t0 = s.t0 := by
  rcases endAttempt_cases s with ⟨-, h⟩ | ⟨-, h⟩ <;> rw [h] <;> rfl
@[simp] theorem endAttempt_attempts (s : State) : (endAttempt s).attempts = s.attempts := by
  rcases endAttempt_cases s with ⟨-, h⟩ | ⟨-, h⟩ <;> rw [h] <;> rfl
@[simp] theorem endAttempt_pollCnt (s : State) : (endAttempt s).pollCnt = s.pollCnt := by
  rcases endAttempt_cases s with ⟨-, h⟩ | ⟨-, h⟩ <;> rw [h] <;> rfl
@[simp] theorem endAttempt_outcome (s : State) : (endAttempt s).outcome = s.outcome := by
  rcases endAttempt_cases s with ⟨-, h⟩ | ⟨-, h⟩ <;> rw [h] <;> rfl
@[simp] theorem endAttempt_txbuf (s : State) : (endAttempt s).txbuf = s.txbuf := by
  rcases endAttempt_cases s with ⟨-, h⟩ | ⟨-, h⟩ <;> rw [h] <;> rfl
@[simp] theorem endAttempt_rxbuf (s : State) : (endAttempt s).rxbuf = s.rxbuf := by
  rcases endAttempt_cases s with ⟨-, h⟩ | ⟨-, h⟩ <;> rw [h] <;> rfl
@[simp] theorem endAttempt_shadow (s : State) : (endAttempt s).shadow = s.shadow := by
  rcases endAttempt_cases s with ⟨-, h⟩ | ⟨-, h⟩ <;> rw [h] <;> rfl
@[simp] theorem endAttempt_timing (s : State) : (endAttempt s).timing = s.timing := by
  rcases endAttempt_cases s with ⟨-, h⟩ | ⟨-, h⟩ <;> rw [h] <;> rfl
@[simp] theorem endAttempt_wire (s : State) : (endAttempt s).wire = s.wire := by
  rcases endAttempt_cases s with ⟨-, h⟩ | ⟨-, h⟩ <;> rw [h] <;> rfl
@[simp] theorem endAttempt_rxStore (s : State) : (endAttempt s).rxStore = s.rxStore := by
  rcases endAttempt_cases s with ⟨-, h⟩ | ⟨-, h⟩ <;> rw [h] <;> rfl
@[simp] theorem endAttempt_inputs (s : State) : (endAttempt s).inputs = s.inputs := by
  rcases endAttempt_cases s with ⟨-, h⟩ | ⟨-, h⟩ <;> rw [h] <;> rfl
@[simp] theorem endAttempt_writes (s : State) : (endAttempt s).writes = s.writes := by
  rcases endAttempt_cases s with ⟨-, h⟩ | ⟨-, h⟩ <;> rw [h] <;> rfl
@[simp] theorem endAttempt_waits (s : State) : (endAttempt s).waits = s.waits := by
  rcases endAttempt_cases s with ⟨-, h⟩ | ⟨-, h⟩ <;> rw [h] <;> rfl
@[simp] theorem endAttempt_resetIn (s : State) : (endAttempt s).resetIn = s.resetIn := by
  rcases endAttempt_cases s with ⟨-, h⟩ | ⟨-, h⟩ <;> rw [h] <;> rfl
@[simp] theorem endAttempt_resetsAfter (s : State) : (endAttempt s).resetsAfter = s.resetsAfter := by
  rcases endAttempt_cases s with ⟨-, h⟩ | ⟨-, h⟩ <;> rw [h] <;> rfl
@[simp] theorem endAttempt_trace (s : State) : (endAttempt s).trace = s.trace ++ [.now (clockAnswer s)] := by
  rcases endAttempt_cases s with ⟨-, h⟩ | ⟨-, h⟩ <;> rw [h] <;> rfl
@[simp] theorem endAttempt_clock (s : State) : (endAttempt s).clock = clockAnswer s := by
  rcases endAttempt_cases s with ⟨-, h⟩ | ⟨-, h⟩ <;> rw [h] <;> rfl
@[simp] theorem endAttempt_lapses (s : State) : (endAttempt s).lapses = s.lapses.tail := by
  rcases endAttempt_cases s with ⟨-, h⟩ | ⟨-, h⟩ <;> rw [h] <;> rfl

/-- The end of an attempt, as R156 has it. -/
theorem endAttempt_ended (s : State) : AttemptEnded s (endAttempt s) s.outcome s.outcome.status where
  outcome := endAttempt_outcome s
  spent := fun h => by
    rw [endAttempt_clock] at h
    rcases endAttempt_cases s with ⟨-, he⟩ | ⟨h', -⟩
    · rw [he]; exact ⟨rfl, rfl, rfl⟩
    · omega
  retry := fun h => by
    rw [endAttempt_clock] at h
    rcases endAttempt_cases s with ⟨h', -⟩ | ⟨-, he⟩
    · omega
    · rw [he]; exact ⟨rfl, rfl, ⟨rfl, rfl, rfl, rfl, rfl, rfl⟩⟩

/-- A poll, in terms of the state before the bytes came. -/
theorem pollPhase_receive (k : Option CmdSpec) (bytes : List Byte) (s : State) :
    pollPhase k (receive bytes s) =
      if s.rxStore ++ bytes = [] then
        if s.pollCnt + 1 < s.timing.nPoll then waitFor s.timing.tPoll (polled bytes s)
        else endAttempt (waitFor s.timing.tPoll (polled bytes s))
      else
        match acceptedReply k s.xCmd (s.rxStore ++ bytes) with
        | some r => endWithReply r (polled bytes s)
        | none =>
          if s.timing.corruptRetry then endAttempt { polled bytes s with outcome := .corrupt }
          else raise .corrupt { polled bytes s with outcome := .corrupt } := rfl

/-- Everything phase `POLL` can do. -/
theorem pollWith_cases (k : Option CmdSpec) (bytes : List Byte) (s : State) :
    (s.timing.nPoll ≤ s.pollCnt ∧ pollWith k bytes s = endAttempt (receive bytes s)) ∨
    (s.pollCnt + 1 < s.timing.nPoll ∧ s.rxStore ++ bytes = [] ∧
      pollWith k bytes s = waitFor s.timing.tPoll (polled bytes s)) ∨
    (s.pollCnt + 1 = s.timing.nPoll ∧ s.rxStore ++ bytes = [] ∧
      pollWith k bytes s = endAttempt (waitFor s.timing.tPoll (polled bytes s))) ∨
    (s.pollCnt < s.timing.nPoll ∧ ∃ r, acceptedReply k s.xCmd (s.rxStore ++ bytes) = some r ∧
      pollWith k bytes s = endWithReply r (polled bytes s)) ∨
    (s.pollCnt < s.timing.nPoll ∧ s.rxStore ++ bytes ≠ [] ∧ acceptedReply k s.xCmd (s.rxStore ++ bytes) = none ∧
      s.timing.corruptRetry = true ∧ pollWith k bytes s = endAttempt { polled bytes s with outcome := .corrupt }) ∨
    (s.pollCnt < s.timing.nPoll ∧ s.rxStore ++ bytes ≠ [] ∧ acceptedReply k s.xCmd (s.rxStore ++ bytes) = none ∧
      s.timing.corruptRetry = false ∧ pollWith k bytes s = raise .corrupt { polled bytes s with outcome := .corrupt })
    := by
  by_cases hn : s.pollCnt < s.timing.nPoll
  · refine .inr ?_
    have hp : pollWith k bytes s = pollPhase k (receive bytes s) := by simp [pollWith, hn]
    rw [hp, pollPhase_receive]
    by_cases he : s.rxStore ++ bytes = []
    · by_cases hl : s.pollCnt + 1 < s.timing.nPoll
      · exact .inl ⟨hl, he, by rw [if_pos he, if_pos hl]⟩
      · exact .inr (.inl ⟨by omega, he, by rw [if_pos he, if_neg hl]⟩)
    · refine .inr (.inr ?_)
      rw [if_neg he]
      cases ha : acceptedReply k s.xCmd (s.rxStore ++ bytes) with
      | some r => exact .inl ⟨hn, r, rfl, rfl⟩
      | none =>
        refine .inr ?_
        cases hcr : s.timing.corruptRetry
        · exact .inr ⟨hn, he, rfl, rfl, rfl⟩
        · exact .inl ⟨hn, he, rfl, rfl, rfl⟩
  · exact .inl ⟨by omega, by simp [pollWith, hn]⟩

/-! ## One transition -/

theorem transition_idle {k : Option CmdSpec} {s : State} (h : s.phase = .idle) : transition k s = s := by
  simp [transition, h]

theorem transition_check {k : Option CmdSpec} {s : State} (h : s.phase = .check) :
    transition k s = checkPhase k s := by
  simp [transition, h]

theorem transition_tx {k : Option CmdSpec} {s : State} (h : s.phase = .tx) : transition k s = txPhase k s := by
  simp [transition, h]

theorem transition_settle {k : Option CmdSpec} {s : State} (h : s.phase = .settle) :
    transition k s = settlePhase s := by
  simp [transition, h]

theorem transition_poll {k : Option CmdSpec} {s : State} (h : s.phase = .poll) : transition k s = pollNext k s := by
  simp [transition, h]

/-! ## Iteration -/

theorem runCommand_rest {k : Option CmdSpec} {s : State} (h : atRest s = true) (n : Nat) : runCommand k n s = s := by
  cases n <;> simp [runCommand, h]

theorem runCommand_succ {k : Option CmdSpec} {s : State} (h : atRest s = false) (n : Nat) :
    runCommand k (n + 1) s = runCommand k n (tick k s) := by
  simp [runCommand, h]

/-- What every transition keeps holds at the end of a run. -/
theorem runCommand_induct {k : Option CmdSpec} {P : State → Prop}
    (hstep : ∀ s, P s → atRest s = false → P (tick k s)) {s : State} (hs : P s) (n : Nat) : P (runCommand k n s) := by
  induction n generalizing s with
  | zero => exact hs
  | succ n ih =>
    cases h : atRest s
    · rw [runCommand_succ h]; exact ih (hstep s hs h)
    · rwa [runCommand_rest h]

/-- A run long enough for a decreasing measure comes to rest. -/
theorem runCommand_atRest {k : Option CmdSpec} {P : State → Prop} (m : State → Nat)
    (hstep : ∀ s, P s → atRest s = false → P (tick k s) ∧ m (tick k s) < m s) {s : State} (hs : P s) {n : Nat}
    (hn : m s ≤ n) : atRest (runCommand k n s) = true := by
  induction n generalizing s with
  | zero =>
    cases h : atRest s
    · exact absurd (hstep s hs h).2 (by omega)
    · exact h
  | succ n ih =>
    cases h : atRest s
    · rw [runCommand_succ h]
      have := hstep s hs h
      exact ih this.1 (by omega)
    · rwa [runCommand_rest h]

theorem atRest_idle {s : State} (h : s.phase = .idle) : atRest s = true := by simp [atRest, h]
theorem atRest_check {s : State} (h : s.phase = .check) : atRest s = false := by simp [atRest, h]
theorem atRest_tx {s : State} (h : s.phase = .tx) : atRest s = false := by simp [atRest, h]
theorem atRest_settle {s : State} (h : s.phase = .settle) : atRest s = false := by simp [atRest, h]

/-- A polling engine is at rest exactly when the state does not say what arrives. -/
theorem atRest_poll {s : State} (h : s.phase = .poll) : atRest s = true ↔ NoArrival s := by
  unfold atRest NoArrival
  rw [h]
  cases hi : s.inputs with
  | nil => simp
  | cons x rest => cases x <;> simp

/-- A polling engine that is not at rest polls what the state says. -/
theorem exists_arrival {s : State} (h : s.phase = .poll) (hr : atRest s = false) :
    ∃ bytes rest, s.inputs = .arrive bytes :: rest := by
  by_contra hne
  have := (atRest_poll h).mpr fun bytes rest e => hne ⟨bytes, rest, e⟩
  simp [this] at hr

/-- An engine at rest is idle or polls. -/
theorem atRest_cases {s : State} (h : atRest s = true) : s.phase = .idle ∨ (s.phase = .poll ∧ NoArrival s) := by
  cases hp : s.phase with
  | idle => exact .inl rfl
  | check => simp [atRest_check hp] at h
  | tx => simp [atRest_tx hp] at h
  | settle => simp [atRest_settle hp] at h
  | poll => exact .inr ⟨rfl, (atRest_poll hp).mp h⟩

theorem pollNext_of_arrive {k : Option CmdSpec} {s : State} {bytes : List Byte} {rest : List Input}
    (h : s.inputs = .arrive bytes :: rest) : pollNext k s = pollWith k bytes { s with inputs := rest } := by
  rw [pollNext, arrival_of_arrive h, dropArrival_of_arrive h]

/-- The bound on the transitions is never below that of a write command. -/
theorem enoughTransitions_ge (T : Timing) : ∃ n, enoughTransitions T = n + 4 := by
  refine ⟨T.tBudget * (T.nPoll + 3) + T.nPoll, ?_⟩
  simp only [enoughTransitions]
  ring

/-! ## Commands -/

/-- A presented command runs from its acceptance. -/
theorem present_ready {k : Option CmdSpec} {c : PortCmd} {s : State} (h : s.phase = .idle) :
    present k c s = runCommand k (enoughTransitions s.timing) (accept c s) := by
  simp [present, State.busy, h]

/-- A busy engine takes no command (R25). -/
theorem present_busy {k : Option CmdSpec} {c : PortCmd} {s : State} (h : s.busy = true) : present k c s = s := by
  simp [present, h]

/-- The latches after acceptance hold the command. -/
theorem accept_latched (c : PortCmd) (s : State) : Latched (accept c s) c where
  id := rfl
  code := rfl
  np := rfl
  first := fun p h => by simp [accept, h]
  second := fun p h => by simp [accept, h]

end Sys2Proof.Machine
end

