-- ==== Sys2Proof/Laws/Step.lean ====
section
/-! SUPPORT. What a step is: the meanings of the rows as presentation and arrival, and the cases of `fetch`. -/

namespace Sys2Proof.Machine

/-! ## The meanings -/

/-- The meaning of a request row is its presentation on the command port (R110). -/
theorem exec_request {i : Instr} (h : i.isReply = false) (s : State) :
    exec i s = .next (present (some (specOf i.fields.cmd)) i.portCmd s) := by
  cases i <;> first | rfl | simp [Instr.isReply, Instr.fields] at h

/-- The meaning of a reply row is the arrival of its frame. -/
theorem exec_reply {i : Instr} (h : i.isReply = true) (s : State) : exec i s = .next (arrive (encode i) s) := by
  cases i <;> first | rfl | simp [Instr.isReply, Instr.fields] at h

/-- A received frame that is a reply row is that row's bytes. -/
theorem encode_of_decode {bytes : List Byte} {i : Instr} (h : decode bytes = .ok i) (hr : i.isReply = true) :
    encode i = bytes := by
  unfold decode at h
  split at h
  · rename_i h0 h1 id len code k rest
    split at h
    · simp at h
    rename_i hh
    simp only [not_or, not_not] at hh
    obtain ⟨rfl, rfl⟩ := hh
    split at h
    · simp at h
    · rename_i c hc
      have hcode := Cmd.code_of_ofCode hc
      split at h
      · split_ifs at h
        cases c <;> simp [request0, orNoRow] at h <;> subst h <;> simp [Instr.isReply, Instr.fields] at hr
      · split_ifs at h with hlen
        cases c <;> simp [request1, reply1, orNoRow] at h <;> subst h <;>
          first
            | (simp [Instr.isReply, Instr.fields] at hr; done)
            | (subst hlen; simp [encode, Instr.fields, frameWith, frameBody, Args.bytes, Args.np, hcode])
      · split_ifs at h with hlen
        cases c <;> simp [request2, reply2, orNoRow] at h <;> subst h <;>
          first
            | (simp [Instr.isReply, Instr.fields] at hr; done)
            | (subst hlen; simp [encode, Instr.fields, frameWith, frameBody, Args.bytes, Args.np, hcode])
      · simp at h
  · simp at h

/-- What a step makes of what it fetched. -/
def runFetched : Fetched → Host.Outcome State Fault Refusal
  | .run i t => exec i t
  | .go t => .next t
  | .stop r => .fault r
  | .refuse r => .refused r

theorem step_eq (s : State) : step s = runFetched (fetch s) := by
  unfold step runFetched; cases fetch s <;> rfl

/-- What arrives is dealt with as bytes, be it an instruction or not. -/
theorem runFetched_fetchArrival (bytes : List Byte) (s : State) :
    runFetched (fetchArrival bytes s) = .next (arrive bytes s) := by
  unfold fetchArrival
  cases hd : decodeReply bytes with
  | none => rfl
  | some i =>
    unfold decodeReply at hd
    split at hd <;> rename_i hd'
    · split_ifs at hd with hr
      simp only [Option.some.injEq] at hd
      subst hd
      show exec _ s = _
      rw [exec_reply hr, encode_of_decode hd' hr]
    · simp at hd

/-! ## Steps -/

/-- The reset input comes before everything (R280). -/
theorem step_reset {s : State} (h : s.resetIn = some 0) : step s = .next (applyReset s) := by
  simp [step, fetch, h]

/-- A poll that meets an arrival is the poll the engine would make. -/
theorem arrive_eq_tick {s : State} {bytes : List Byte} {rest : List Input} (hp : s.phase = .poll)
    (hi : s.inputs = .arrive bytes :: rest) (hr : s.resetIn ≠ some 0) :
    arrive bytes { s with inputs := rest } = tick (specAt s.xCmd) s := by
  have key : ∀ n, transition (specAt s.xCmd) { s with resetIn := n } =
      pollWith (specAt s.xCmd) bytes { s with inputs := rest, resetIn := n } := fun n => by
    rw [transition_poll (s := { s with resetIn := n }) hp, pollNext_of_arrive (s := { s with resetIn := n }) hi]
  rw [arrive, deliver, if_pos (show ({ s with inputs := rest } : State).phase = .poll from hp), tick]
  rcases underReset_cases (transition (specAt s.xCmd)) s with ⟨h0, h⟩ | ⟨h0, -⟩ | ⟨n, h0, h⟩
  · rw [h, underReset_none (s := { s with inputs := rest }) h0]
    have := key none
    rw [← h0] at this
    exact this.symm
  · exact absurd h0 hr
  · rw [h, key]
    simp [underReset, h0]

/-- A step of a busy engine is one transition, whatever arrives. -/
theorem step_busy {s : State} (hb : s.busy = true) (hr : s.resetIn ≠ some 0) :
    step s = .next (tick (specAt s.xCmd) s) := by
  rw [step_eq, show fetch s = fetchBusy s by simp [fetch, hb, hr]]
  by_cases h : s.phase = .poll ∧ ∃ bytes rest, s.inputs = .arrive bytes :: rest
  · obtain ⟨hp, bytes, rest, hi⟩ := h
    rw [show fetchBusy s = fetchArrival bytes { s with inputs := rest } by simp [fetchBusy, hp, hi],
      runFetched_fetchArrival, arrive_eq_tick hp hi hr]
  · have : fetchBusy s = .go (tick (specAt s.xCmd) s) := by
      unfold fetchBusy
      split
      · rename_i bytes rest hp hi
        exact absurd ⟨hp, bytes, rest, hi⟩ h
      · rfl
    rw [this]; rfl

/-- A step of a busy engine that no reset is coming to. -/
theorem step_busy_none {s : State} (hb : s.busy = true) (hr : s.resetIn = none) :
    step s = .next (transition (specAt s.xCmd) s) := by
  rw [step_busy hb (by simp [hr]), tick_none hr]

theorem fetch_idle {s : State} (hp : s.phase = .idle) (hr : s.resetIn ≠ some 0) : fetch s = fetchIdle s := by
  simp [fetch, hr, State.busy, hp]

/-- An idle engine that meets a command takes it, valid or not (R25). -/
theorem step_present {s : State} {c : PortCmd} {rest : List Input} (hp : s.phase = .idle) (hr : s.resetIn ≠ some 0)
    (hi : s.inputs = .present c :: rest) :
    (∀ i, decodeCommand c = some i → step s = exec i { s with inputs := rest }) ∧
    (decodeCommand c = none → step s = .next (present none c { s with inputs := rest })) := by
  have hf : fetch s = fetchCommand c { s with inputs := rest } := by
    rw [fetch_idle hp hr]; simp [fetchIdle, hi]
  constructor
  · intro i hd; simp [step, hf, fetchCommand, hd]
  · intro hd; simp [step, hf, fetchCommand, hd]

/-- An idle engine lets what arrives stand in the UART (R36). -/
theorem step_arrive {s : State} {bytes : List Byte} {rest : List Input} (hp : s.phase = .idle)
    (hr : s.resetIn ≠ some 0) (hi : s.inputs = .arrive bytes :: rest) :
    step s = .next (receive bytes { s with inputs := rest }) := by
  have hf : fetch s = fetchArrival bytes { s with inputs := rest } := by
    rw [fetch_idle hp hr]; simp [fetchIdle, hi]
  rw [step_eq, hf, runFetched_fetchArrival]
  simp [arrive, deliver, hp]

/-- Everything a step of an idle engine can do when no command stands on the port. -/
theorem step_idle_cases {s : State} (hp : s.phase = .idle) (hr : s.resetIn ≠ some 0) :
    (s.inputs = [] ∧ step s = .next (waitIdle s)) ∨
    (∃ c rest, s.inputs = .present c :: rest) ∨
    (∃ bytes rest, s.inputs = .arrive bytes :: rest ∧ step s = .next (receive bytes { s with inputs := rest })) ∨
    (∃ rest, s.inputs = .readReply :: rest ∧
      step s = if replyHeld s then .next { s with inputs := rest } else .fault .noReplyValue) ∨
    (∃ id rest, s.inputs = .readShadow id :: rest ∧
      step s = if id.toNat ≤ 253 then .next { s with inputs := rest } else .fault .noShadowEntry) ∨
    (∃ rest, s.inputs = .bypass :: rest ∧ step s = .refused .hostBypass) := by
  have hf := fetch_idle hp hr
  cases hi : s.inputs with
  | nil => exact .inl ⟨rfl, by simp [step, hf, fetchIdle, hi]⟩
  | cons x rest =>
    refine .inr ?_
    cases x with
    | present c => exact .inl ⟨c, rest, rfl⟩
    | arrive bytes => exact .inr (.inl ⟨bytes, rest, rfl, step_arrive hp hr hi⟩)
    | readReply =>
      refine .inr (.inr (.inl ⟨rest, rfl, ?_⟩))
      cases h : replyHeld s <;> simp [step, hf, fetchIdle, hi, h]
    | readShadow id =>
      refine .inr (.inr (.inr (.inl ⟨id, rest, rfl, ?_⟩)))
      have h253 : Config.idMaxUnicast.toNat = 253 := rfl
      by_cases h : id.toNat ≤ 253 <;> simp [step, hf, fetchIdle, hi, h253, h]
    | bypass => exact .inr (.inr (.inr (.inr ⟨rest, rfl, by simp [step, hf, fetchIdle, hi]⟩)))

/-! ## Commands on the port -/

/-- Every command on the port is a request row, or has an invalid code or a wrong count. -/
theorem decodeCommand_cases (c : PortCmd) :
    (∃ i k, decodeCommand c = some i ∧ Cmd.ofCode c.code = some k ∧ i.isReply = false ∧ i.fields.cmd = k ∧
      i.portCmd = c ∧ c.args.np = k.requestNp) ∨
    (decodeCommand c = none ∧ ∀ k, Cmd.ofCode c.code = some k → c.args.np ≠ k.requestNp) := by
  obtain ⟨id, code, args⟩ := c
  cases hk : Cmd.ofCode code with
  | none => exact .inr ⟨by simp [decodeCommand, hk], by simp⟩
  | some k =>
    have hcode := Cmd.code_of_ofCode hk
    subst hcode
    cases args <;> cases k <;>
      first
        | exact .inl ⟨_, _, by simp [decodeCommand, request0, request1, request2]; rfl, rfl, rfl, rfl, rfl, rfl⟩
        | exact .inr ⟨by simp [decodeCommand, request0, request1, request2],
            by simp [Args.np, Cmd.requestNp]⟩

/-- The command of a request row is that row. -/
theorem decodeCommand_portCmd {i : Instr} (h : i.isReply = false) : decodeCommand i.portCmd = some i := by
  cases i <;> first | rfl | simp [Instr.isReply, Instr.fields] at h

/-- A presented command with an invalid code or a wrong count is refused in phase `CHECK` (R165 step 1). -/
theorem present_none {c : PortCmd} {s : State} (h : s.phase = .idle) (hr : s.resetIn = none) :
    present none c s = raise .invalidParameterCount (accept c s) := by
  obtain ⟨n, hn⟩ := enoughTransitions_ge s.timing
  rw [present_ready h, hn, runCommand_succ (atRest_check rfl), tick_none (s := accept c s) hr]
  show runCommand none (n + 3) (raise .invalidParameterCount (accept c s)) = _
  exact runCommand_rest (atRest_idle rfl) _

end Sys2Proof.Machine
end

