-- ==== Sys2Proof/Laws/Commands.lean ====
section
/-! SUPPORT. What a presented command does up to the point where its answer matters: a write command to its end, a read
command to its first poll. -/

namespace Sys2Proof.Machine

/-- The command in the latches, past phase `CHECK`, on its way to the line. -/
def framed (p : PortCmd) (s : State) : State :=
  { accept p s with txbuf := frameOf p.id p.code p.args, phase := .tx }

@[simp] theorem framed_xId (p : PortCmd) (s : State) : (framed p s).xId = p.id := rfl
@[simp] theorem framed_xCmd (p : PortCmd) (s : State) : (framed p s).xCmd = p.code := rfl
@[simp] theorem framed_xNp (p : PortCmd) (s : State) : (framed p s).xNp = p.args.np := rfl
@[simp] theorem framed_xP0 (p : PortCmd) (s : State) : (framed p s).xP0 = (accept p s).xP0 := rfl
@[simp] theorem framed_xP1 (p : PortCmd) (s : State) : (framed p s).xP1 = (accept p s).xP1 := rfl
@[simp] theorem framed_phase (p : PortCmd) (s : State) : (framed p s).phase = .tx := rfl
@[simp] theorem framed_dir (p : PortCmd) (s : State) : (framed p s).dir = s.dir := rfl
@[simp] theorem framed_t0 (p : PortCmd) (s : State) : (framed p s).t0 = s.t0 := rfl
@[simp] theorem framed_attempts (p : PortCmd) (s : State) : (framed p s).attempts = s.attempts := rfl
@[simp] theorem framed_pollCnt (p : PortCmd) (s : State) : (framed p s).pollCnt = s.pollCnt := rfl
@[simp] theorem framed_outcome (p : PortCmd) (s : State) : (framed p s).outcome = s.outcome := rfl
@[simp] theorem framed_txbuf (p : PortCmd) (s : State) : (framed p s).txbuf = frameOf p.id p.code p.args := rfl
@[simp] theorem framed_rxbuf (p : PortCmd) (s : State) : (framed p s).rxbuf = s.rxbuf := rfl
@[simp] theorem framed_resValid (p : PortCmd) (s : State) : (framed p s).resValid = false := rfl
@[simp] theorem framed_resStatus (p : PortCmd) (s : State) : (framed p s).resStatus = s.resStatus := rfl
@[simp] theorem framed_resId (p : PortCmd) (s : State) : (framed p s).resId = s.resId := rfl
@[simp] theorem framed_resCmd (p : PortCmd) (s : State) : (framed p s).resCmd = s.resCmd := rfl
@[simp] theorem framed_resNp (p : PortCmd) (s : State) : (framed p s).resNp = s.resNp := rfl
@[simp] theorem framed_resP0 (p : PortCmd) (s : State) : (framed p s).resP0 = s.resP0 := rfl
@[simp] theorem framed_resP1 (p : PortCmd) (s : State) : (framed p s).resP1 = s.resP1 := rfl
@[simp] theorem framed_shadow (p : PortCmd) (s : State) : (framed p s).shadow = s.shadow := rfl
@[simp] theorem framed_trace (p : PortCmd) (s : State) : (framed p s).trace = s.trace := rfl
@[simp] theorem framed_timing (p : PortCmd) (s : State) : (framed p s).timing = s.timing := rfl
@[simp] theorem framed_clock (p : PortCmd) (s : State) : (framed p s).clock = s.clock := rfl
@[simp] theorem framed_wire (p : PortCmd) (s : State) : (framed p s).wire = s.wire := rfl
@[simp] theorem framed_rxStore (p : PortCmd) (s : State) : (framed p s).rxStore = s.rxStore := rfl
@[simp] theorem framed_inputs (p : PortCmd) (s : State) : (framed p s).inputs = s.inputs := rfl
@[simp] theorem framed_writes (p : PortCmd) (s : State) : (framed p s).writes = s.writes := rfl
@[simp] theorem framed_waits (p : PortCmd) (s : State) : (framed p s).waits = s.waits := rfl
@[simp] theorem framed_lapses (p : PortCmd) (s : State) : (framed p s).lapses = s.lapses := rfl
@[simp] theorem framed_resetsAfter (p : PortCmd) (s : State) : (framed p s).resetsAfter = s.resetsAfter := rfl
@[simp] theorem framed_resetIn (p : PortCmd) (s : State) : (framed p s).resetIn = s.resetIn := rfl
@[simp] theorem framed_draws (p : PortCmd) (s : State) : (framed p s).draws = { s.draws with value := s.draws.value + 2 } := rfl

@[simp] theorem writeAnswer_framed (p : PortCmd) (s : State) : writeAnswer (framed p s) = writeAnswer s := rfl
@[simp] theorem clockAnswer_framed (p : PortCmd) (s : State) : clockAnswer (framed p s) = clockAnswer s := rfl

/-- A read command that has sent its request for the first time. -/
def requested (p : PortCmd) (s : State) : State :=
  { transmit (startAttempt (startQuery (framed p s))) with phase := .settle }

/-- A read command at its first poll: the request sent, the line turned around. -/
def asked (p : PortCmd) (s : State) : State := settlePhase (requested p s)

/-- `ENCODE` from the latches of an accepted command with its own count. -/
theorem encodeFrame_accept {c : Cmd} {p : PortCmd} (s : State) (hcode : p.code = c.code) (hnp : p.args.np = c.requestNp) :
    encodeFrame (accept p s).xId (accept p s).xCmd (accept p s).xNp (accept p s).xP0 (accept p s).xP1 =
      .ok (frameOf p.id p.code p.args) := by
  have hl := accept_latched p s
  rw [hl.id, hl.code, hl.np, hcode]
  exact encodeFrame_args p.id hnp hl.first hl.second

/-- Everything a write command on an idle engine does. -/
theorem present_write {c : Cmd} {w : WriteSpec} {p : PortCmd} {s : State} (hk : specOf c = .write w)
    (hcode : p.code = c.code) (hnp : p.args.np = c.requestNp) (hs : Ready s) :
    ((p.id = 255 ∨ w.rangeOk (accept p s).xP0 (accept p s).xP1 = false) ∧
      present (some (specOf c)) p s = raise .outOfRange (accept p s)) ∨
    (p.id ≠ 255 ∧ w.rangeOk (accept p s).xP0 (accept p s).xP1 = true ∧ (writeAnswer s).ok = true ∧
      present (some (specOf c)) p s = endWithoutReply .ok (updateShadow w (transmit (framed p s)))) ∨
    (p.id ≠ 255 ∧ w.rangeOk (accept p s).xP0 (accept p s).xP1 = true ∧ (writeAnswer s).ok = false ∧
      present (some (specOf c)) p s = raise .ioFailure (transmit (framed p s))) := by
  obtain ⟨n, hn⟩ := enoughTransitions_ge s.timing
  rw [present_ready hs.idle, hn, runCommand_succ (atRest_check rfl), tick_none (s := accept p s) hs.noReset,
    transition_check (s := accept p s) rfl]
  rcases checkPhase_cases (c := c) (s := accept p s) hcode with ⟨h, -⟩ | ⟨-, h, he⟩ | ⟨-, hid, hr, frame, hf, h⟩
  · exact absurd hnp h
  · refine .inl ⟨by simpa [hk, CmdSpec.rangeOk] using h, ?_⟩
    rw [he, runCommand_rest (atRest_idle rfl)]
  · rw [encodeFrame_accept s hcode hnp] at hf
    simp only [Except.ok.injEq] at hf
    subst hf
    rcases h with ⟨w', hw', h⟩ | ⟨r, hr', -⟩
    · rw [hk] at hw' hr
      cases hw'
      replace h : checkPhase (some (specOf c)) (accept p s) = framed p s := h
      rw [h, runCommand_succ (atRest_tx rfl), tick_none (s := framed p s) hs.noReset,
        transition_tx (s := framed p s) rfl, hk]
      rcases txPhase_write w (framed p s) with ⟨ha, ht⟩ | ⟨ha, ht⟩
      · exact .inr (.inl ⟨hid, hr, ha, by rw [ht, runCommand_rest (atRest_idle rfl)]⟩)
      · exact .inr (.inr ⟨hid, hr, ha, by rw [ht, runCommand_rest (atRest_idle rfl)]⟩)
    · rw [hk] at hr'; cases hr'

/-- Everything a read command on an idle engine does, up to its first poll. -/
theorem present_read {c : Cmd} {r : ReadSpec} {p : PortCmd} {s : State} (hk : specOf c = .read r)
    (hcode : p.code = c.code) (hnp : p.args.np = c.requestNp) (hs : Ready s) :
    (p.id = 255 ∧ present (some (specOf c)) p s = raise .outOfRange (accept p s)) ∨
    (p.id ≠ 255 ∧ (writeAnswer s).ok = false ∧ present (some (specOf c)) p s =
      raise .ioFailure (transmit (startAttempt (startQuery (framed p s))))) ∨
    (p.id ≠ 255 ∧ (writeAnswer s).ok = true ∧ ∃ n, n + 3 = enoughTransitions s.timing ∧
      present (some (specOf c)) p s = runCommand (some (specOf c)) n (asked p s)) := by
  obtain ⟨n, hn⟩ := enoughTransitions_ge s.timing
  rw [present_ready hs.idle, hn, runCommand_succ (atRest_check rfl), tick_none (s := accept p s) hs.noReset,
    transition_check (s := accept p s) rfl]
  rcases checkPhase_cases (c := c) (s := accept p s) hcode with ⟨h, -⟩ | ⟨-, h, he⟩ | ⟨-, hid, hr, frame, hf, h⟩
  · exact absurd hnp h
  · refine .inl ⟨by simpa [hk, CmdSpec.rangeOk] using h, ?_⟩
    rw [he, runCommand_rest (atRest_idle rfl)]
  · rw [encodeFrame_accept s hcode hnp] at hf
    simp only [Except.ok.injEq] at hf
    subst hf
    rcases h with ⟨w, hw, -⟩ | ⟨r', hr', h⟩
    · rw [hk] at hw; cases hw
    · rw [hk] at hr'
      cases hr'
      replace h : checkPhase (some (specOf c)) (accept p s) = startQuery (framed p s) := h
      rw [h, runCommand_succ (atRest_tx rfl), tick_none (s := startQuery (framed p s)) hs.noReset,
        transition_tx (s := startQuery (framed p s)) rfl, hk]
      rcases txPhase_read r (startQuery (framed p s)) with ⟨ha, ht⟩ | ⟨ha, ht⟩
      · refine .inr (.inr ⟨hid, ha, n + 1, rfl, ?_⟩)
        replace ht : txPhase (some (.read r)) (startQuery (framed p s)) = requested p s := ht
        rw [ht, runCommand_succ (atRest_settle rfl), tick_none (s := requested p s) hs.noReset,
          transition_settle (s := requested p s) rfl]
        rfl
      · exact .inr (.inl ⟨hid, ha, by rw [ht, runCommand_rest (atRest_idle rfl)]⟩)

end Sys2Proof.Machine
end

