-- ==== Sys2Proof/Laws/PerInstr.lean ====
section
/-! SUPPORT. The family `FrameSize`, one lemma per instruction: the layout of its bytes (`30_encoding.md` R91 to R94). -/

namespace Sys2Proof.Laws.FrameSize

/-- The bytes of an instruction begin with the two header bytes, its ID, its `LEN` and its command code; there are
`LEN + 3` of them, and `LEN` is three more than the number of parameter bytes. -/
def Statement (i : Instr) : Prop :=
  (encode i).take 3 = [0x55, 0x55, i.fields.id] ∧
  (encode i).length = ((encode i).getD 3 0).toNat + 3 ∧
  ((encode i).getD 3 0).toNat = 3 + 2 * i.fields.args.np.toNat ∧
  (encode i).getD 4 0 = i.fields.cmd.code

theorem moveWrite (id : Byte) (position durationMs : Word) : Statement (.moveWrite id position durationMs) := ⟨rfl, rfl, rfl, rfl⟩
theorem moveRead (id : Byte) : Statement (.moveRead id) := ⟨rfl, rfl, rfl, rfl⟩
theorem moveStageWrite (id : Byte) (position durationMs : Word) : Statement (.moveStageWrite id position durationMs) := ⟨rfl, rfl, rfl, rfl⟩
theorem moveStageRead (id : Byte) : Statement (.moveStageRead id) := ⟨rfl, rfl, rfl, rfl⟩
theorem trigger (id : Byte) : Statement (.trigger id) := ⟨rfl, rfl, rfl, rfl⟩
theorem stop (id : Byte) : Statement (.stop id) := ⟨rfl, rfl, rfl, rfl⟩
theorem offsetAdjust (id : Byte) (offset : Word) : Statement (.offsetAdjust id offset) := ⟨rfl, rfl, rfl, rfl⟩
theorem offsetCommit (id : Byte) : Statement (.offsetCommit id) := ⟨rfl, rfl, rfl, rfl⟩
theorem offsetRead (id : Byte) : Statement (.offsetRead id) := ⟨rfl, rfl, rfl, rfl⟩
theorem rotationLimitWrite (id : Byte) (low high : Word) : Statement (.rotationLimitWrite id low high) := ⟨rfl, rfl, rfl, rfl⟩
theorem rotationLimitRead (id : Byte) : Statement (.rotationLimitRead id) := ⟨rfl, rfl, rfl, rfl⟩
theorem voltageLimitWrite (id : Byte) (low high : Word) : Statement (.voltageLimitWrite id low high) := ⟨rfl, rfl, rfl, rfl⟩
theorem voltageLimitRead (id : Byte) : Statement (.voltageLimitRead id) := ⟨rfl, rfl, rfl, rfl⟩
theorem tempLimitWrite (id : Byte) (limit : Word) : Statement (.tempLimitWrite id limit) := ⟨rfl, rfl, rfl, rfl⟩
theorem tempLimitRead (id : Byte) : Statement (.tempLimitRead id) := ⟨rfl, rfl, rfl, rfl⟩
theorem tempRead (id : Byte) : Statement (.tempRead id) := ⟨rfl, rfl, rfl, rfl⟩
theorem voltageRead (id : Byte) : Statement (.voltageRead id) := ⟨rfl, rfl, rfl, rfl⟩
theorem positionRead (id : Byte) : Statement (.positionRead id) := ⟨rfl, rfl, rfl, rfl⟩
theorem motorModeWrite (id : Byte) (mode speed : Word) : Statement (.motorModeWrite id mode speed) := ⟨rfl, rfl, rfl, rfl⟩
theorem motorModeRead (id : Byte) : Statement (.motorModeRead id) := ⟨rfl, rfl, rfl, rfl⟩
theorem loadWrite (id : Byte) (load : Word) : Statement (.loadWrite id load) := ⟨rfl, rfl, rfl, rfl⟩
theorem loadRead (id : Byte) : Statement (.loadRead id) := ⟨rfl, rfl, rfl, rfl⟩
theorem ledModeWrite (id : Byte) (mode : Word) : Statement (.ledModeWrite id mode) := ⟨rfl, rfl, rfl, rfl⟩
theorem ledModeRead (id : Byte) : Statement (.ledModeRead id) := ⟨rfl, rfl, rfl, rfl⟩
theorem ledFaultWrite (id : Byte) (mask : Word) : Statement (.ledFaultWrite id mask) := ⟨rfl, rfl, rfl, rfl⟩
theorem ledFaultRead (id : Byte) : Statement (.ledFaultRead id) := ⟨rfl, rfl, rfl, rfl⟩
theorem moveReadReply (id : Byte) (position durationMs : Word) (chk : Byte) : Statement (.moveReadReply id position durationMs chk) := ⟨rfl, rfl, rfl, rfl⟩
theorem moveStageReadReply (id : Byte) (position durationMs : Word) (chk : Byte) : Statement (.moveStageReadReply id position durationMs chk) := ⟨rfl, rfl, rfl, rfl⟩
theorem offsetReadReply (id : Byte) (offset : Word) (chk : Byte) : Statement (.offsetReadReply id offset chk) := ⟨rfl, rfl, rfl, rfl⟩
theorem rotationLimitReadReply (id : Byte) (low high : Word) (chk : Byte) : Statement (.rotationLimitReadReply id low high chk) := ⟨rfl, rfl, rfl, rfl⟩
theorem voltageLimitReadReply (id : Byte) (low high : Word) (chk : Byte) : Statement (.voltageLimitReadReply id low high chk) := ⟨rfl, rfl, rfl, rfl⟩
theorem tempLimitReadReply (id : Byte) (limit : Word) (chk : Byte) : Statement (.tempLimitReadReply id limit chk) := ⟨rfl, rfl, rfl, rfl⟩
theorem tempReadReply (id : Byte) (temperature : Word) (chk : Byte) : Statement (.tempReadReply id temperature chk) := ⟨rfl, rfl, rfl, rfl⟩
theorem voltageReadReply (id : Byte) (voltage : Word) (chk : Byte) : Statement (.voltageReadReply id voltage chk) := ⟨rfl, rfl, rfl, rfl⟩
theorem positionReadReply (id : Byte) (position : Word) (chk : Byte) : Statement (.positionReadReply id position chk) := ⟨rfl, rfl, rfl, rfl⟩
theorem motorModeReadReply (id : Byte) (mode speed : Word) (chk : Byte) : Statement (.motorModeReadReply id mode speed chk) := ⟨rfl, rfl, rfl, rfl⟩
theorem loadReadReply (id : Byte) (load : Word) (chk : Byte) : Statement (.loadReadReply id load chk) := ⟨rfl, rfl, rfl, rfl⟩
theorem ledModeReadReply (id : Byte) (mode : Word) (chk : Byte) : Statement (.ledModeReadReply id mode chk) := ⟨rfl, rfl, rfl, rfl⟩
theorem ledFaultReadReply (id : Byte) (mask : Word) (chk : Byte) : Statement (.ledFaultReadReply id mask chk) := ⟨rfl, rfl, rfl, rfl⟩

end Sys2Proof.Laws.FrameSize
end

