-- ==== Sys2Proof/Tests/Slice0.lean ====
section
/-! SUPPORT. Tests. Every expected result is from the spec: the frames E1 to E26 and the vectors K, DV, X, M, Q, W, G and
P of `95_test_vectors.md`, whose names the theorems carry. At the end, for each statement that has hypotheses, a concrete
state and operands that meet them. -/

namespace Sys2Proof.Tests

open Sys2Proof.Machine

/-! ## Bench -/

/-- The timing of the test platform TP1: a `write` takes one tick and a `wait` what is asked, which are then the worst
cases of R8 too. -/
def tp1 : Timing where
  tSettle := 1
  tPoll := 2
  nPoll := 3
  tBudget := 20
  writeMax := 1
  settleMax := 1
  pollMax := 2
  ticksPerMs := 1000
  corruptRetry := true

/-- An idle engine on TP1 at clock 100: a `write` takes one tick, a `wait` what is asked, nothing else takes time. -/
def bench (inputs : List Input) (oks : List Bool) : State :=
  { State.reset with
    timing := tp1, clock := 100, rxStore := [], inputs := inputs
    writes := oks.map fun ok => ⟨ok, 1, 0⟩, waits := List.replicate 40 0
    lapses := List.replicate 12 0 }

/-- What the next state of an outcome satisfies. -/
def gives (o : Host.Outcome State Fault Refusal) (p : State → Bool) : Bool :=
  match o with
  | .next t => p t
  | _ => false

/-- One step of the bench with a command on the port and what its polls are answered. -/
def answered (c : PortCmd) (polls : List (List Byte)) (oks : List Bool) : Host.Outcome State Fault Refusal :=
  step (bench (.present c :: polls.map .arrive) oks)

/-- The command ends `Ok`, its calls are `swm; w(frame) -> ok`, and the snapshot of its ID is as given. -/
def writesOk (c : PortCmd) (frame : List Byte) (e : ServoState) : Bool :=
  gives (answered c [] [true]) fun t =>
    decide (t.resValid = true ∧ t.resStatus = .ok ∧ t.trace = [.setWriteMode, .write frame true] ∧ t.wire = frame ∧
      shadowGet t.shadow c.id.toNat = e)

/-- The command ends with an error before any call. -/
def refusedWith (c : PortCmd) (e : Status) : Bool :=
  gives (answered c [] [true]) fun t =>
    decide (t.resValid = true ∧ t.resStatus = e ∧ t.trace = [] ∧ t.dir = .unset ∧ t.phase = .idle)

/-- The query sends the request and, answered at its first poll, ends `Ok` with the reply and its typed result. -/
def reads (c : PortCmd) (request reply : List Byte) (held : Reply) (r : Typed) : Bool :=
  gives (answered c [reply] [true]) fun t =>
    decide (t.resStatus = .ok ∧ t.trace = [.now 100, .setWriteMode, .write request true, .wait 1, .setReadMode,
      .readAvailable reply] ∧ readReplyPort t = some held ∧ typedResult t = some r ∧ t.dir = .read)

/-- A snapshot of which nothing is written. -/
def fresh : ServoState := ServoState.unwritten

/-- `REQ` and `RPL` of section 4. -/
def req : List Byte := [0x55, 0x55, 0x09, 0x03, 0x1C, 0xD7]
def rpl : List Byte := [0x55, 0x55, 0x09, 0x05, 0x1C, 0xF2, 0x01, 0xE2]

/-- `position-read 9`. -/
def ask : PortCmd := ⟨9, 28, .zero⟩

/-! ## WellFormed: an ill-formed instruction for each check -/

theorem test_illFormed :
    (Instr.trigger 255).illFormed = some .idInvalid ∧ (Instr.positionRead 255).illFormed = some .idInvalid ∧
    (Instr.moveWrite 1 1001 0).illFormed = some .position ∧ (Instr.moveStageWrite 18 100 30001).illFormed = some .duration ∧
    (Instr.offsetAdjust 7 0xFF82).illFormed = some .offset ∧ (Instr.offsetAdjust 7 126).illFormed = some .offset ∧
    (Instr.rotationLimitWrite 4 500 500).illFormed = some .rotationLimits ∧
    (Instr.voltageLimitWrite 4 4499 12000).illFormed = some .voltageLimits ∧
    (Instr.tempLimitWrite 4 49).illFormed = some .tempLimit ∧ (Instr.loadWrite 6 2).illFormed = some .load ∧
    (Instr.positionReadReply 9 498 0xE3).illFormed = some .checksum ∧
    (Instr.moveReadReply 5 512 1000 5).illFormed = some .checksum := by decide

theorem test_wellFormed :
    (Instr.moveWrite 253 1000 30000).wf = true ∧ (Instr.offsetAdjust 7 0xFF83).wf = true ∧
    (Instr.rotationLimitWrite 1 999 1000).wf = true ∧ (Instr.voltageLimitWrite 4 4500 12000).wf = true ∧
    (Instr.tempLimitWrite 4 100).wf = true ∧ (Instr.trigger 254).wf = true ∧
    (Instr.positionReadReply 9 498 0xE2).wf = true ∧ (Instr.moveReadReply 5 512 1000 4).wf = true := by decide

/-! ## Decoding, from the spec's own frames (section 3.1, section 6) -/

theorem test_decode_motion :
    decode [0x55, 0x55, 0x05, 0x07, 0x01, 0x00, 0x02, 0xE8, 0x03, 0x05] = .ok (.moveWrite 5 512 1000) ∧
    decode [0x55, 0x55, 0x05, 0x03, 0x02, 0xF5] = .ok (.moveRead 5) ∧
    decode [0x55, 0x55, 0x01, 0x07, 0x07, 0xF4, 0x01, 0x20, 0x03, 0xD8] = .ok (.moveStageWrite 1 500 800) ∧
    decode [0x55, 0x55, 0x05, 0x03, 0x08, 0xEF] = .ok (.moveStageRead 5) ∧
    decode [0x55, 0x55, 0x01, 0x03, 0x0B, 0xF0] = .ok (.trigger 1) ∧
    decode [0x55, 0x55, 0x01, 0x03, 0x0C, 0xEF] = .ok (.stop 1) := ⟨rfl, rfl, rfl, rfl, rfl, rfl⟩

theorem test_decode_offset :
    decode [0x55, 0x55, 0x07, 0x05, 0x11, 0x83, 0xFF, 0x60] = .ok (.offsetAdjust 7 0xFF83) ∧
    decode [0x55, 0x55, 0x07, 0x03, 0x12, 0xE3] = .ok (.offsetCommit 7) ∧
    decode [0x55, 0x55, 0x07, 0x03, 0x13, 0xE2] = .ok (.offsetRead 7) := ⟨rfl, rfl, rfl⟩

theorem test_decode_limits :
    decode [0x55, 0x55, 0x04, 0x07, 0x14, 0x64, 0x00, 0x84, 0x03, 0xF5] = .ok (.rotationLimitWrite 4 100 900) ∧
    decode [0x55, 0x55, 0x04, 0x03, 0x15, 0xE3] = .ok (.rotationLimitRead 4) ∧
    decode [0x55, 0x55, 0x04, 0x07, 0x16, 0x70, 0x17, 0xD0, 0x20, 0x67] = .ok (.voltageLimitWrite 4 6000 8400) ∧
    decode [0x55, 0x55, 0x04, 0x03, 0x17, 0xE1] = .ok (.voltageLimitRead 4) ∧
    decode [0x55, 0x55, 0x04, 0x05, 0x18, 0x55, 0x00, 0x89] = .ok (.tempLimitWrite 4 85) ∧
    decode [0x55, 0x55, 0x04, 0x03, 0x19, 0xDF] = .ok (.tempLimitRead 4) := ⟨rfl, rfl, rfl, rfl, rfl, rfl⟩

theorem test_decode_telemetry :
    decode [0x55, 0x55, 0x04, 0x03, 0x1A, 0xDE] = .ok (.tempRead 4) ∧
    decode [0x55, 0x55, 0x04, 0x03, 0x1B, 0xDD] = .ok (.voltageRead 4) ∧
    decode [0x55, 0x55, 0x09, 0x03, 0x1C, 0xD7] = .ok (.positionRead 9) := ⟨rfl, rfl, rfl⟩

theorem test_decode_modes :
    decode [0x55, 0x55, 0x06, 0x07, 0x1D, 0x01, 0x00, 0x0C, 0xFE, 0xCA] = .ok (.motorModeWrite 6 1 0xFE0C) ∧
    decode [0x55, 0x55, 0x06, 0x03, 0x1E, 0xD8] = .ok (.motorModeRead 6) ∧
    decode [0x55, 0x55, 0x06, 0x05, 0x1F, 0x01, 0x00, 0xD4] = .ok (.loadWrite 6 1) ∧
    decode [0x55, 0x55, 0x06, 0x03, 0x20, 0xD6] = .ok (.loadRead 6) ∧
    decode [0x55, 0x55, 0x06, 0x05, 0x21, 0x01, 0x00, 0xD2] = .ok (.ledModeWrite 6 1) ∧
    decode [0x55, 0x55, 0x06, 0x03, 0x22, 0xD4] = .ok (.ledModeRead 6) ∧
    decode [0x55, 0x55, 0x06, 0x05, 0x23, 0x07, 0x00, 0xCA] = .ok (.ledFaultWrite 6 7) ∧
    decode [0x55, 0x55, 0x06, 0x03, 0x24, 0xD2] = .ok (.ledFaultRead 6) := ⟨rfl, rfl, rfl, rfl, rfl, rfl, rfl, rfl⟩

theorem test_decode_replies :
    decode [0x55, 0x55, 0x05, 0x07, 0x02, 0x00, 0x02, 0xE8, 0x03, 0x04] = .ok (.moveReadReply 5 512 1000 0x04) ∧
    decode [0x55, 0x55, 0x05, 0x07, 0x08, 0xF4, 0x01, 0x20, 0x03, 0xD3] = .ok (.moveStageReadReply 5 500 800 0xD3) ∧
    decode [0x55, 0x55, 0x07, 0x05, 0x13, 0xEC, 0xFF, 0xF5] = .ok (.offsetReadReply 7 0xFFEC 0xF5) ∧
    decode [0x55, 0x55, 0x04, 0x07, 0x15, 0x64, 0x00, 0x84, 0x03, 0xF4] = .ok (.rotationLimitReadReply 4 100 900 0xF4) ∧
    decode [0x55, 0x55, 0x04, 0x07, 0x17, 0x70, 0x17, 0xD0, 0x20, 0x66] = .ok (.voltageLimitReadReply 4 6000 8400 0x66) ∧
    decode [0x55, 0x55, 0x04, 0x05, 0x19, 0x55, 0x00, 0x88] = .ok (.tempLimitReadReply 4 85 0x88) ∧
    decode [0x55, 0x55, 0x04, 0x05, 0x1A, 0x25, 0x00, 0xB7] = .ok (.tempReadReply 4 37 0xB7) ∧
    decode [0x55, 0x55, 0x04, 0x05, 0x1B, 0xF4, 0x1C, 0xCB] = .ok (.voltageReadReply 4 7412 0xCB) ∧
    decode [0x55, 0x55, 0x09, 0x05, 0x1C, 0xF2, 0x01, 0xE2] = .ok (.positionReadReply 9 498 0xE2) ∧
    decode [0x55, 0x55, 0x06, 0x07, 0x1E, 0x01, 0x00, 0x0C, 0xFE, 0xC9] = .ok (.motorModeReadReply 6 1 0xFE0C 0xC9) ∧
    decode [0x55, 0x55, 0x06, 0x05, 0x20, 0x01, 0x00, 0xD3] = .ok (.loadReadReply 6 1 0xD3) ∧
    decode [0x55, 0x55, 0x06, 0x05, 0x22, 0x01, 0x00, 0xD1] = .ok (.ledModeReadReply 6 1 0xD1) ∧
    decode [0x55, 0x55, 0x06, 0x05, 0x24, 0x07, 0x00, 0xC9] = .ok (.ledFaultReadReply 6 7 0xC9) :=
  ⟨rfl, rfl, rfl, rfl, rfl, rfl, rfl, rfl, rfl, rfl, rfl, rfl, rfl⟩

/-- R103, R104, R98: what is no row is refused by name. -/
theorem test_decode_refuses :
    decode [0x55, 0x55, 0x01, 0x05, 0x0E, 0x07, 0x00, 0xE4] = .error .reservedCode ∧
    decode [0x54, 0x55, 0x09, 0x03, 0x1C, 0xD7] = .error .header ∧ decode [0x55, 0x55, 0x09, 0x05, 0x1C] = .error .short ∧
    decode [0x55, 0x55, 0x09, 0x05, 0x1C, 0xF2, 0x01] = .error .size ∧
    decode [0x55, 0x55, 0x09, 0x03, 0x1C, 0xF2, 0x01, 0xE2] = .error .length ∧
    decode [0x55, 0x55, 0x01, 0x03, 0x01, 0xFA] = .error .noRow := ⟨rfl, rfl, rfl, rfl, rfl, rfl⟩

/-- The encoder gives the spec's frames. -/
theorem test_encode :
    encode (.moveWrite 253 1000 30000) = [0x55, 0x55, 0xFD, 0x07, 0x01, 0xE8, 0x03, 0x30, 0x75, 0x6A] ∧
    encode (.trigger 254) = [0x55, 0x55, 0xFE, 0x03, 0x0B, 0xF3] ∧
    encode (.offsetAdjust 7 0xFFFF) = [0x55, 0x55, 0x07, 0x05, 0x11, 0xFF, 0xFF, 0xE4] ∧
    encode (.positionReadReply 9 498 0xE3) = [0x55, 0x55, 0x09, 0x05, 0x1C, 0xF2, 0x01, 0xE3] := by decide

/-- A table word, in the table's numbering and with the first byte lowest. -/
theorem test_tableWord :
    decodeTableWord 80 0x55550507010002E80305 = some (.moveWrite 5 512 1000) ∧
    decodeTableWord 48 0x555500031C00 = some (.positionRead 0) ∧
    decodeTableWord 48 0x001C03005555 = some (.positionRead 0) ∧
    decodeTableWord 64 0x555501050E0700E4 = none := by decide

/-- The first step after reset runs a placed word: a request and a reply. -/
theorem test_first_step :
    step (State.reset.withFetchWord 48 0x555509031CD7) = exec (.positionRead 9) State.reset ∧
    step (State.reset.withFetchWord 64 0x555509051CF201E2) = exec (.positionReadReply 9 498 0xE2) State.reset := ⟨rfl, rfl⟩

/-! ## Codec (sections 2 and 3) -/

theorem test_checksum_K :
    checksum [0x05, 0x07, 0x01, 0x00, 0x02, 0xE8, 0x03] = 0x05 ∧ checksum [0xE0, 0x03, 0x1C] = 0x00 ∧
    checksum [0xE1, 0x03, 0x1C] = 0xFF ∧ checksum [0x00, 0x07, 0x01, 0xFF, 0xFF, 0xFF, 0xFF] = 0xFB ∧
    checksum [0xFF, 0xFF, 0xFF] = 0x02 := by decide

theorem test_encodeFrame_E :
    encodeFrame 255 11 0 0 0 = .ok [0x55, 0x55, 0xFF, 0x03, 0x0B, 0xF2] ∧
    encodeFrame 171 1 2 0x55AA 0 = .ok [0x55, 0x55, 0xAB, 0x07, 0x01, 0xAA, 0x55, 0x00, 0x00, 0x4D] ∧
    encodeFrame 1 1 1 5 0 = .error .invalidParameterCount ∧ encodeFrame 1 28 1 5 0 = .error .invalidParameterCount ∧
    encodeFrame 1 13 1 5 0 = .error .invalidParameterCount ∧ encodeFrame 1 37 0 0 0 = .error .invalidParameterCount :=
  ⟨rfl, rfl, rfl, rfl, rfl, rfl⟩

theorem test_decodeFrame_accepts_DV :
    decodeFrame rpl 28 = .ok ⟨9, 28, .one 498⟩ ∧
    decodeFrame [0x55, 0x55, 0x06, 0x07, 0x1E, 0x01, 0x00, 0x0C, 0xFE, 0xC9] 30 = .ok ⟨6, 30, .two 1 0xFE0C⟩ ∧
    decodeFrame req 28 = .ok ⟨9, 28, .zero⟩ ∧
    decodeFrame [0x55, 0x55, 0xFF, 0x05, 0x1C, 0xF2, 0x01, 0xEC] 28 = .ok ⟨255, 28, .one 498⟩ ∧
    decodeFrame [0x55, 0x55, 0xE1, 0x03, 0x1C, 0xFF] 28 = .ok ⟨225, 28, .zero⟩ := by decide

theorem test_decodeFrame_rejects_XM :
    decodeFrame [0x55, 0x55, 0x09, 0x05, 0x1C] 28 = .empty ∧ decodeFrame [0, 0, 0, 0, 0] 28 = .empty ∧
    decodeFrame [0x55, 0x54, 0x09, 0x03, 0x1C, 0xD7] 28 = .corrupt ∧
    decodeFrame [0x55, 0x55, 0x09, 0x04, 0x1C, 0x01, 0xD5] 28 = .corrupt ∧
    decodeFrame [0x55, 0x55, 0x09, 0x09, 0x1C, 0x01, 0x00, 0x02, 0x00, 0x03, 0x00, 0xCB] 28 = .corrupt ∧
    decodeFrame (rpl ++ [0]) 28 = .corrupt ∧ decodeFrame (0 :: rpl) 28 = .corrupt ∧ decodeFrame rpl 27 = .corrupt ∧
    decodeFrame (rpl ++ rpl) 28 = .corrupt ∧
    decodeFrame [0x55, 0x55, 0x01, 0x05, 0x0E, 0x07, 0x00, 0xE4] 14 = .corrupt ∧
    decodeFrame [0x55, 0x55, 0x0A, 0x05, 0x1C, 0xF2, 0x01, 0xE2] 28 = .corrupt ∧
    decodeFrame [0x55, 0x55, 0x09, 0x05, 0x1B, 0xF2, 0x01, 0xE2] 27 = .corrupt := by decide

/-! ## Write commands (section 5) -/

theorem test_moveWrite_W11 : writesOk ⟨253, 1, .two 1000 30000⟩
    [0x55, 0x55, 0xFD, 0x07, 0x01, 0xE8, 0x03, 0x30, 0x75, 0x6A]
    { fresh with targetPos := some 1000, targetDur := some 30000, targetStaged := some false } = true := by decide
theorem test_moveWrite_W12_W13 : refusedWith ⟨1, 1, .two 1001 0⟩ .outOfRange = true ∧
    refusedWith ⟨1, 1, .two 0 30001⟩ .outOfRange = true := by decide
theorem test_moveStageWrite_W16 : writesOk ⟨18, 7, .two 0 0⟩
    [0x55, 0x55, 0x12, 0x07, 0x07, 0x00, 0x00, 0x00, 0x00, 0xDF]
    { fresh with targetPos := some 0, targetDur := some 0, targetStaged := some true } = true := by decide
theorem test_trigger_W2 : writesOk ⟨254, 11, .zero⟩ [0x55, 0x55, 0xFE, 0x03, 0x0B, 0xF3] fresh = true := by decide
theorem test_trigger_W3 : refusedWith ⟨255, 11, .zero⟩ .outOfRange = true := by decide
theorem test_stop_W60 : writesOk ⟨1, 12, .zero⟩ [0x55, 0x55, 0x01, 0x03, 0x0C, 0xEF] fresh = true := by decide
theorem test_offsetAdjust_W20 : writesOk ⟨7, 17, .one 0xFF83⟩ [0x55, 0x55, 0x07, 0x05, 0x11, 0x83, 0xFF, 0x60]
    { fresh with offset := some (-125) } = true := by decide
theorem test_offsetAdjust_W25_W27 : refusedWith ⟨7, 17, .one 0xFF82⟩ .outOfRange = true ∧
    refusedWith ⟨7, 17, .one 0x0083⟩ .outOfRange = true := by decide
theorem test_offsetCommit_W61 : writesOk ⟨7, 18, .zero⟩ [0x55, 0x55, 0x07, 0x03, 0x12, 0xE3] fresh = true := by decide
theorem test_rotationLimitWrite_W33 : writesOk ⟨1, 20, .two 999 1000⟩
    [0x55, 0x55, 0x01, 0x07, 0x14, 0xE7, 0x03, 0xE8, 0x03, 0x0E]
    { fresh with rotLow := some 999, rotHigh := some 1000 } = true := by decide
theorem test_rotationLimitWrite_W34_W36 : refusedWith ⟨4, 20, .two 500 500⟩ .outOfRange = true ∧
    refusedWith ⟨4, 20, .two 0 1001⟩ .outOfRange = true := by decide
theorem test_voltageLimitWrite_W40 : writesOk ⟨4, 22, .two 4500 12000⟩
    [0x55, 0x55, 0x04, 0x07, 0x16, 0x94, 0x11, 0xE0, 0x2E, 0x2B]
    { fresh with voltLow := some 4500, voltHigh := some 12000 } = true := by decide
theorem test_voltageLimitWrite_W42_W43 : refusedWith ⟨4, 22, .two 4499 12000⟩ .outOfRange = true ∧
    refusedWith ⟨4, 22, .two 4500 12001⟩ .outOfRange = true := by decide
theorem test_tempLimitWrite_W48 : writesOk ⟨4, 24, .one 100⟩ [0x55, 0x55, 0x04, 0x05, 0x18, 0x64, 0x00, 0x7A]
    { fresh with tempLimit := some 100 } = true := by decide
theorem test_tempLimitWrite_W50_W51 : refusedWith ⟨4, 24, .one 49⟩ .outOfRange = true ∧
    refusedWith ⟨4, 24, .one 101⟩ .outOfRange = true := by decide
theorem test_motorModeWrite_W64 : writesOk ⟨6, 29, .two 1 0xFE0C⟩
    [0x55, 0x55, 0x06, 0x07, 0x1D, 0x01, 0x00, 0x0C, 0xFE, 0xCA] fresh = true := by decide
theorem test_loadWrite_W65 : writesOk ⟨6, 31, .one 1⟩ [0x55, 0x55, 0x06, 0x05, 0x1F, 0x01, 0x00, 0xD4]
    { fresh with load := some true } = true := by decide
theorem test_loadWrite_W67 : refusedWith ⟨6, 31, .one 2⟩ .outOfRange = true := by decide
theorem test_ledModeWrite_W70 : writesOk ⟨6, 33, .one 1⟩ [0x55, 0x55, 0x06, 0x05, 0x21, 0x01, 0x00, 0xD2]
    { fresh with ledMode := some 1 } = true := by decide
theorem test_ledFaultWrite_W71 : writesOk ⟨6, 35, .one 7⟩ [0x55, 0x55, 0x06, 0x05, 0x23, 0x07, 0x00, 0xCA]
    { fresh with ledFaultMask := some 7 } = true := by decide

/-- W4 to W7, P1x: the count before the ID, the ID before the range. -/
theorem test_priority :
    refusedWith ⟨5, 1, .one 2000⟩ .invalidParameterCount = true ∧
    refusedWith ⟨255, 20, .one 600⟩ .invalidParameterCount = true ∧
    refusedWith ⟨255, 20, .two 600 400⟩ .outOfRange = true ∧
    refusedWith ⟨1, 13, .one 2⟩ .invalidParameterCount = true := by decide

/-- W8: a failed `write` leaves the shadow file alone. -/
theorem test_write_fails_W8 : gives (answered ⟨5, 1, .two 512 1000⟩ [] [false]) (fun t =>
    decide (t.resStatus = .ioFailure ∧ t.shadow = [] ∧ t.dir = .write ∧
      t.trace = [.setWriteMode, .write [0x55, 0x55, 0x05, 0x07, 0x01, 0x00, 0x02, 0xE8, 0x03, 0x05] false])) = true := by
  decide

/-! ## Read commands (section 6) -/

theorem test_moveRead_G1 : reads ⟨5, 2, .zero⟩ [0x55, 0x55, 0x05, 0x03, 0x02, 0xF5]
    [0x55, 0x55, 0x05, 0x07, 0x02, 0x00, 0x02, 0xE8, 0x03, 0x04] ⟨5, 2, .two 512 1000⟩ (.unsignedPair 512 1000) = true := by
  decide
theorem test_moveStageRead_G2 : reads ⟨5, 8, .zero⟩ [0x55, 0x55, 0x05, 0x03, 0x08, 0xEF]
    [0x55, 0x55, 0x05, 0x07, 0x08, 0xF4, 0x01, 0x20, 0x03, 0xD3] ⟨5, 8, .two 500 800⟩ (.unsignedPair 500 800) = true := by
  decide
theorem test_offsetRead_G3 : reads ⟨7, 19, .zero⟩ [0x55, 0x55, 0x07, 0x03, 0x13, 0xE2]
    [0x55, 0x55, 0x07, 0x05, 0x13, 0xEC, 0xFF, 0xF5] ⟨7, 19, .one 0xFFEC⟩ (.signed (-20)) = true := by decide
theorem test_rotationLimitRead_G28 : reads ⟨4, 21, .zero⟩ [0x55, 0x55, 0x04, 0x03, 0x15, 0xE3]
    [0x55, 0x55, 0x04, 0x07, 0x15, 0x84, 0x03, 0x64, 0x00, 0xF4] ⟨4, 21, .two 900 100⟩ (.unsignedPair 900 100) = true := by
  decide
theorem test_voltageLimitRead_G5 : reads ⟨4, 23, .zero⟩ [0x55, 0x55, 0x04, 0x03, 0x17, 0xE1]
    [0x55, 0x55, 0x04, 0x07, 0x17, 0x70, 0x17, 0xD0, 0x20, 0x66] ⟨4, 23, .two 6000 8400⟩
    (.unsignedPair 6000 8400) = true := by decide
theorem test_tempLimitRead_G6 : reads ⟨4, 25, .zero⟩ [0x55, 0x55, 0x04, 0x03, 0x19, 0xDF]
    [0x55, 0x55, 0x04, 0x05, 0x19, 0x55, 0x00, 0x88] ⟨4, 25, .one 85⟩ (.unsigned 85) = true := by decide
theorem test_tempRead_G7 : reads ⟨4, 26, .zero⟩ [0x55, 0x55, 0x04, 0x03, 0x1A, 0xDE]
    [0x55, 0x55, 0x04, 0x05, 0x1A, 0x25, 0x00, 0xB7] ⟨4, 26, .one 37⟩ (.unsigned 37) = true := by decide
theorem test_voltageRead_G8 : reads ⟨4, 27, .zero⟩ [0x55, 0x55, 0x04, 0x03, 0x1B, 0xDD]
    [0x55, 0x55, 0x04, 0x05, 0x1B, 0xF4, 0x1C, 0xCB] ⟨4, 27, .one 7412⟩ (.unsigned 7412) = true := by decide
theorem test_positionRead_G20 : reads ask req [0x55, 0x55, 0x09, 0x05, 0x1C, 0xF6, 0xFF, 0xE0] ⟨9, 28, .one 0xFFF6⟩
    (.unsigned 65526) = true := by decide
theorem test_motorModeRead_G10 : reads ⟨6, 30, .zero⟩ [0x55, 0x55, 0x06, 0x03, 0x1E, 0xD8]
    [0x55, 0x55, 0x06, 0x07, 0x1E, 0x01, 0x00, 0x0C, 0xFE, 0xC9] ⟨6, 30, .two 1 0xFE0C⟩
    (.unsignedSigned 1 (-500)) = true := by decide
theorem test_loadRead_G22 : reads ⟨6, 32, .zero⟩ [0x55, 0x55, 0x06, 0x03, 0x20, 0xD6]
    [0x55, 0x55, 0x06, 0x05, 0x20, 0x02, 0x00, 0xD2] ⟨6, 32, .one 2⟩ (.truth true) = true := by decide
theorem test_ledModeRead_G12 : reads ⟨6, 34, .zero⟩ [0x55, 0x55, 0x06, 0x03, 0x22, 0xD4]
    [0x55, 0x55, 0x06, 0x05, 0x22, 0x01, 0x00, 0xD1] ⟨6, 34, .one 1⟩ (.unsigned 1) = true := by decide
theorem test_ledFaultRead_G13 : reads ⟨6, 36, .zero⟩ [0x55, 0x55, 0x06, 0x03, 0x24, 0xD2]
    [0x55, 0x55, 0x06, 0x05, 0x24, 0x07, 0x00, 0xC9] ⟨6, 36, .one 7⟩ (.unsigned 7) = true := by decide
theorem test_positionRead_G24_G25 : refusedWith ⟨255, 28, .zero⟩ .outOfRange = true ∧
    refusedWith ⟨9, 28, .one 0⟩ .invalidParameterCount = true := by decide

/-! ## Queries on TP1 (section 4.2) -/

/-- The end of a query: its result, the number of its attempts, the clock. -/
def ends (polls : List (List Byte)) (oks : List Bool) (r : Status) (attempts clock : Nat) (dir : Dir) : Bool :=
  gives (answered ask polls oks) fun t =>
    decide (t.phase = .idle ∧ t.resValid = true ∧ t.resStatus = r ∧ t.attempts = attempts ∧ t.clock = clock ∧
      t.dir = dir ∧ t.rxbuf = [] ∧ t.shadow = [] ∧ (r = .ok → readReplyPort t = some ⟨9, 28, .one 498⟩))

theorem test_query_Q3 : ends [[], [], [], rpl] [true, true] .ok 2 110 .read = true := by decide
theorem test_query_Q4 : ends [[0x55, 0x55, 0x09, 0x05, 0x1C, 0xF2, 0x01, 0xE3], rpl] [true, true] .ok 2 104 .read = true := by
  decide
theorem test_query_Q5 : ends (List.replicate 9 []) [true, true, true] .timeout 3 124 .read = true := by decide
theorem test_query_Q6 : ends ([[0x55, 0x55, 0x09, 0x05, 0x1C], [0xF2, 0x01, 0xE2]] ++ List.replicate 6 [])
    (List.replicate 4 true) .timeout 4 120 .read = true := by decide
theorem test_query_Q7 : ends (List.replicate 10 req) (List.replicate 10 true) .corrupt 10 120 .read = true := by decide
theorem test_query_Q8 : ends [[], [], []] [true, false] .ioFailure 2 109 .write = true := by decide
theorem test_query_Q9 : ends [] [false] .ioFailure 1 101 .write = true := by decide
theorem test_query_Q10 : ends (List.replicate 6 [] ++ [[0]] ++ List.replicate 3 []) (List.replicate 4 true) .timeout 4 126
    .read = true := by decide
theorem test_query_Q12 : ends (List.replicate 8 [] ++ [rpl]) (List.replicate 3 true) .ok 3 122 .read = true := by decide

/-- Q14: a stale reply to another command ends the first attempt. -/
theorem test_query_Q14 : gives (answered ⟨4, 27, .zero⟩ [rpl, [0x55, 0x55, 0x04, 0x05, 0x1B, 0xF4, 0x1C, 0xCB]] [true, true])
    (fun t => decide (t.attempts = 2 ∧ t.clock = 104 ∧ readReplyPort t = some ⟨4, 27, .one 7412⟩)) = true := by decide

/-- Q15: the ID of a reply is not compared. -/
theorem test_query_Q15 : gives (answered ⟨4, 28, .zero⟩ [rpl] [true])
    (fun t => decide (t.resStatus = .ok ∧ readReplyPort t = some ⟨9, 28, .one 498⟩)) = true := by decide

/-- Q16: without retries of a corrupt attempt. -/
theorem test_query_Q16 : gives (step ({ bench [.present ask, .arrive [0x55, 0x55, 0x09, 0x05, 0x1C, 0xF2, 0x01, 0xE3]] [true]
      with timing := { tp1 with corruptRetry := false } }))
    (fun t => decide (t.resStatus = .corrupt ∧ t.attempts = 1 ∧ t.clock = 102)) = true := by decide

/-- R12 item 1 (d): the clock may have gone on while the engine was idle: the query starts at what `now()` answers. -/
theorem test_idle_time : gives (step { bench [.present ask, .arrive rpl] [true] with lapses := [25] })
    (fun t => decide (t.t0 = 125 ∧ t.clock = 127 ∧ t.trace.head? = some (.now 125))) = true := by decide

/-- The reset input may come again and again: R280 sets no bound. -/
theorem test_two_resets :
    gives (step { bench [.present ask] [] with phase := .check, resetIn := some 0, resetsAfter := [0, 7] }) (fun t =>
      decide (t.phase = .idle ∧ t.resetIn = some 0 ∧ t.resetsAfter = [7]) &&
        gives (step t) fun u => decide (u.phase = .idle ∧ u.resetIn = some 7 ∧ u.resetsAfter = [])) = true := by decide

/-- R8 on TP1 with the longest `write` that keeps an attempt below the budget, and with one tick more. -/
theorem test_budget_R8 : ({ tp1 with writeMax := 12 } : Timing).ok = true ∧ ({ tp1 with writeMax := 13 } : Timing).ok = false := by
  decide

/-- R117: the legs in another order, for staging and for triggering. -/
theorem test_waypoint : IsWaypoint (fun _ => (500, 500, 500)) 800
    (waypointIn [5, 4, 3, 2, 1, 0] [0, 2, 4, 1, 3, 5] (fun _ => (500, 500, 500)) 800) :=
  ⟨_, _, by decide, by decide, rfl⟩

/-! ## Witnesses: for every statement with hypotheses, what meets them

A busy engine is shown in the three phases of `position-read 9` on TP1 that follow its check. -/

theorem ready_bench (inputs : List Input) (oks : List Bool) : Ready (bench inputs oks) := ⟨rfl, rfl⟩

/-- About to transmit the request for the first time. -/
def asking (ok : Bool) : State := { bench [] [ok] with xId := 9, xCmd := 28, phase := .tx, txbuf := req, t0 := 100 }

/-- The settle wait is next. -/
def settling : State :=
  { bench [] [] with
    xId := 9, xCmd := 28, phase := .settle, txbuf := req, dir := .write, t0 := 100, attempts := 1, clock := 101 }

/-- Polling. -/
def polling (inputs : List Input) : State :=
  { bench inputs [true] with
    xId := 9, xCmd := 28, phase := .poll, txbuf := req, dir := .read, t0 := 100, attempts := 1, clock := 102 }

/-- `trigger 1`, about to be transmitted. -/
def triggering : State := { bench [] [true] with xId := 1, xCmd := 11, phase := .tx, txbuf := [0x55, 0x55, 1, 3, 11, 0xF0] }

theorem checked_asking (ok : Bool) : Checked (asking ok) (.read positionReadSpec) :=
  ⟨rfl, rfl, by show (9 : Byte) ≠ 255; decide, rfl, by show encodeFrame 9 28 0 0 0 = .ok req; rfl⟩
theorem checked_settling : Checked settling (.read positionReadSpec) := ⟨rfl, rfl, by decide, rfl, rfl⟩
theorem checked_polling (inputs : List Input) : Checked (polling inputs) (.read positionReadSpec) :=
  ⟨rfl, rfl, by show (9 : Byte) ≠ 255; decide, rfl, by show encodeFrame 9 28 0 0 0 = .ok req; rfl⟩
theorem checked_triggering : Checked triggering (.write triggerSpec) := ⟨rfl, rfl, by decide, rfl, rfl⟩

theorem inv_bench (inputs : List Input) (oks : List Bool) : Inv (bench inputs oks) where
  shadowCanonical := rfl
  shadowLegal := fun _ h => nomatch h
  rxbufEmpty := rfl
  statusOfCommand := ⟨by simp [bench, State.reset], by simp [bench, State.reset]⟩
  busyNoResult := fun _ => rfl
  txChecked := fun h => nomatch h
  settleChecked := fun h => nomatch h
  pollChecked := fun h => nomatch h
  settleWrites := fun h => nomatch h
  pollReads := fun h => nomatch h
  timingOk := by show tp1.ok = true; decide
  txTime := fun h => nomatch h
  settleTime := fun h => nomatch h
  pollTime := fun h => nomatch h
  attemptsBound := .inl rfl

/-- `position-read 9` accepted, about to be checked. -/
def checking : State := { bench [] [true] with xId := 9, xCmd := 28, phase := .check }

theorem inv_checking : Inv checking where
  shadowCanonical := rfl
  shadowLegal := fun _ h => nomatch h
  rxbufEmpty := rfl
  statusOfCommand := by decide
  busyNoResult := fun _ => rfl
  txChecked := fun h => nomatch h
  settleChecked := fun h => nomatch h
  pollChecked := fun h => nomatch h
  settleWrites := fun h => nomatch h
  pollReads := fun h => nomatch h
  timingOk := by show tp1.ok = true; decide
  txTime := fun h => nomatch h
  settleTime := fun h => nomatch h
  pollTime := fun h => nomatch h
  attemptsBound := .inl rfl

theorem inv_asking (ok : Bool) : Inv (asking ok) where
  shadowCanonical := rfl
  shadowLegal := fun _ h => nomatch h
  rxbufEmpty := rfl
  statusOfCommand := ⟨by simp [asking, bench, State.reset], by simp [asking, bench, State.reset]⟩
  busyNoResult := fun _ => rfl
  txChecked := fun _ => ⟨_, checked_asking ok⟩
  settleChecked := fun h => nomatch h
  pollChecked := fun h => nomatch h
  settleWrites := fun h => nomatch h
  pollReads := fun h => nomatch h
  timingOk := by show tp1.ok = true; decide
  txTime := fun _ _ => by show 100 + 0 * 1 ≤ 100 ∧ (0 = 0 ∨ 100 < 100 + 20); decide
  settleTime := fun h => nomatch h
  pollTime := fun h => nomatch h
  attemptsBound := .inl rfl

theorem inv_settling : Inv settling where
  shadowCanonical := rfl
  shadowLegal := fun _ h => nomatch h
  rxbufEmpty := rfl
  statusOfCommand := by decide
  busyNoResult := fun _ => rfl
  txChecked := fun h => nomatch h
  settleChecked := fun _ => ⟨_, checked_settling⟩
  pollChecked := fun h => nomatch h
  settleWrites := fun _ => rfl
  pollReads := fun h => nomatch h
  timingOk := by show tp1.ok = true; decide
  txTime := fun h => nomatch h
  settleTime := fun _ => by decide
  pollTime := fun h => nomatch h
  attemptsBound := .inr (by decide)

theorem inv_polling (inputs : List Input) : Inv (polling inputs) where
  shadowCanonical := rfl
  shadowLegal := fun _ h => nomatch h
  rxbufEmpty := rfl
  statusOfCommand := ⟨by simp [polling, bench, State.reset], by simp [polling, bench, State.reset]⟩
  busyNoResult := fun _ => rfl
  txChecked := fun h => nomatch h
  settleChecked := fun h => nomatch h
  pollChecked := fun _ => ⟨_, checked_polling inputs⟩
  settleWrites := fun h => nomatch h
  pollReads := fun _ => rfl
  timingOk := by show tp1.ok = true; decide
  txTime := fun h => nomatch h
  settleTime := fun h => nomatch h
  pollTime := fun _ => by show 1 ≤ 1 ∧ 100 + 1 * 1 ≤ 102; decide
  attemptsBound := .inr (by show (1 - 1) * 1 < 20; decide)

theorem inv_triggering : Inv triggering where
  shadowCanonical := rfl
  shadowLegal := fun _ h => nomatch h
  rxbufEmpty := rfl
  statusOfCommand := by decide
  busyNoResult := fun _ => rfl
  txChecked := fun _ => ⟨_, checked_triggering⟩
  settleChecked := fun h => nomatch h
  pollChecked := fun h => nomatch h
  settleWrites := fun h => nomatch h
  pollReads := fun h => nomatch h
  timingOk := by show tp1.ok = true; decide
  txTime := fun _ _ => by decide
  settleTime := fun h => nomatch h
  pollTime := fun h => nomatch h
  attemptsBound := .inl rfl

theorem noArrival_bench (oks : List Bool) : NoArrival (bench [] oks) := fun _ _ h => nomatch h

/-! ### Codec and encoding -/

theorem witness_ChecksumComplementsSum :
    List.Perm [(0x0A : Byte), 0x05, 0x1C] [0x05, 0x0A, 0x1C] ∧
    (2 < [(0x0A : Byte), 0x05, 0x1C].length ∧ 0x1D ≠ byteAt [(0x0A : Byte), 0x05, 0x1C] 2) := by decide
theorem witness_EncodeBuildsFrame :
    Cmd.ofCode 37 = none ∧ (Cmd.ofCode 17 = some .offsetAdjust ∧ (2 : BitVec 2) ≠ Cmd.offsetAdjust.requestNp) ∧
    (Cmd.ofCode 12 = some .stop ∧ Cmd.stop.requestNp = 0) ∧ Cmd.offsetAdjust.requestNp = 1 ∧
    (Cmd.ofCode 1 = some .moveWrite ∧ Cmd.moveWrite.requestNp = 2) := by decide
theorem witness_EncodedFrameShape :
    encodeFrame 5 1 2 512 1000 = .ok [0x55, 0x55, 0x05, 0x07, 0x01, 0x00, 0x02, 0xE8, 0x03, 0x05] := rfl
theorem witness_CodecLaws :
    decodeFrame rpl 28 = .ok ⟨9, 28, .one 498⟩ ∧ (2 ≤ 6 ∧ 6 ≤ rpl.length - 2 ∧ 0 ≠ byteAt rpl 6) ∧
    (2 ≤ 2 ∧ 2 ≤ rpl.length - 2 ∧ 0 ≠ byteAt rpl 2) ∧ 6 ≤ req.length ∧ (req.take 5).length < 6 := by decide
theorem witness_ReservedCodesRefused :
    Cmd.ofCode 14 = none ∧ Cmd.ofCode 0 = none ∧ Cmd.ofCode 37 = none ∧
    (6 ≤ [0x55, 0x55, 0x01, 0x05, 0x0E, 0x07, 0x00, (0xE4 : Byte)].length ∧
      byteAt [0x55, 0x55, 0x01, 0x05, 0x0E, 0x07, 0x00, 0xE4] 4 = 14) ∧ Ready (bench [] [true]) :=
  ⟨rfl, rfl, rfl, by decide, ready_bench _ _⟩
theorem witness_CommandPortNamesRequests :
    (Instr.moveWrite 5 512 1000).isReply = false ∧
    decodeCommand ⟨5, 1, .two 512 1000⟩ = some (.moveWrite 5 512 1000) := by decide
theorem witness_WellFormedRequestsAreSent :
    (Instr.moveWrite 1 1001 0).isReply = false ∧ (Instr.moveWrite 1 1001 0).wf = false ∧
    (Instr.moveWrite 1 1000 30000).wf = true ∧ (Instr.positionRead 254).wf = true ∧ Ready (bench [] [true]) :=
  ⟨rfl, by decide, by decide, by decide, ready_bench _ _⟩

/-! ### Steps -/

theorem witness_ResetInputResets :
    ({ polling [] with resetIn := some 0 } : State).resetIn = some 0 ∧
    ({ polling [] with resetIn := some 0 } : State).phase ≠ .tx ∧
    ({ asking true with resetIn := some 0 } : State).resetIn = some 0 := by
  refine ⟨rfl, ?_, rfl⟩; simp [polling]
theorem witness_StepRunsPresentedCommand :
    (bench [.present ask] [true]).phase = .idle ∧ (bench [.present ask] [true]).resetIn ≠ some 0 ∧
    (bench [.present ask] [true]).inputs = .present ask :: [] ∧ decodeCommand ask = some (.positionRead 9) :=
  ⟨rfl, by simp [bench, State.reset], rfl, rfl⟩
theorem witness_StepRunsArrivedFrame :
    (bench [.arrive rpl] []).phase = .idle ∧ (polling [.arrive rpl]).phase = .poll ∧
    (bench [.arrive rpl] []).resetIn ≠ some 0 ∧ (polling [.arrive rpl]).resetIn ≠ some 0 ∧
    (polling [.arrive rpl]).inputs = .arrive rpl :: [] ∧
    decode rpl = .ok (.positionReadReply 9 498 0xE2) ∧ (Instr.positionReadReply 9 498 0xE2).isReply = true ∧
    (∀ i, decode [0x00] = .ok i → i.isReply = false) :=
  ⟨rfl, rfl, by simp [bench, State.reset], by simp [polling, bench, State.reset], rfl, rfl, rfl, fun _ h => nomatch h⟩
theorem witness_StepRunsPlacedWord : decodeTableWord 48 0x555509031CD7 = some (.positionRead 9) := by decide
theorem witness_BusyRefusesCommands :
    (bench [] []).phase = .idle ∧ (Instr.positionRead 9).isReply = false ∧
    (polling [.present ask]).busy = true ∧ (polling [.present ask]).resetIn ≠ some 0 ∧
    (polling [.present ask]).inputs = .present ask :: [] :=
  ⟨rfl, rfl, rfl, by simp [polling, bench, State.reset], rfl⟩
theorem witness_IdleEngineWaits : Ready (bench [] []) ∧ (bench [] []).inputs = [] := ⟨ready_bench _ _, rfl⟩

/-! ### Errors, at the boundary of each range -/

theorem witness_OutOfRangeCauses :
    Ready (bench [] [true]) ∧ (Instr.trigger 255).fields.id = 255 ∧
    (1000 < (1001 : Word).toNat ∨ 30000 < (0 : Word).toNat) ∧ (1000 < (0 : Word).toNat ∨ 30000 < (30001 : Word).toNat) ∧
    ((0xFF82 : Word).toInt < -125 ∨ 125 < (0xFF82 : Word).toInt) ∧ ((126 : Word).toInt < -125 ∨ 125 < (126 : Word).toInt) ∧
    ¬((1000 : Word).toNat < (1000 : Word).toNat ∧ (1000 : Word).toNat ≤ 1000) ∧
    ¬((0 : Word).toNat < (1001 : Word).toNat ∧ (1001 : Word).toNat ≤ 1000) ∧
    ¬(4500 ≤ (4499 : Word).toNat ∧ (4499 : Word).toNat < (12000 : Word).toNat ∧ (12000 : Word).toNat ≤ 12000) ∧
    ¬(4500 ≤ (4500 : Word).toNat ∧ (4500 : Word).toNat < (12001 : Word).toNat ∧ (12001 : Word).toNat ≤ 12000) ∧
    ((49 : Word).toNat < 50 ∨ 100 < (49 : Word).toNat) ∧ ((101 : Word).toNat < 50 ∨ 100 < (101 : Word).toNat) ∧
    1 < (2 : Word).toNat ∧ ((Instr.positionRead 254).fields.cmd.kind = .read ∧ (Instr.positionRead 254).fields.id ≠ 255) :=
  ⟨ready_bench _ _, by decide, by decide, by decide, by decide, by decide, by decide, by decide, by decide, by decide,
    by decide, by decide, by decide, by decide⟩
theorem witness_InvalidCountCauses :
    encodeFrame 1 1 1 5 0 = .error .invalidParameterCount ∧ (∀ c, Cmd.ofCode 1 = some c → (1 : BitVec 2) ≠ c.requestNp) ∧
    (∀ k, Cmd.ofCode 13 = some k → (Args.one 2).np ≠ k.requestNp) ∧ Ready (bench [] [true]) :=
  ⟨rfl, fun c h => by cases h; decide, fun k h => by simp [Cmd.ofCode] at h, ready_bench _ _⟩

/-! ### Write commands, at the ends of each range -/

theorem witness_MoveWriteRules :
    Ready (bench [] [true]) ∧ Ready (bench [] [false]) ∧
    ((1000 : Word).toNat ≤ 1000 ∧ (30000 : Word).toNat ≤ 30000) ∧
    ¬((1001 : Word).toNat ≤ 1000 ∧ (0 : Word).toNat ≤ 30000) ∧ (254 : Byte) ≠ 255 ∧
    (writeAnswer (bench [] [true])).ok = true ∧ (writeAnswer (bench [] [false])).ok = false :=
  ⟨ready_bench _ _, ready_bench _ _, by decide, by decide, by decide, rfl, rfl⟩
theorem witness_PlainWriteRules :
    Ready (bench [] [true]) ∧ Ready (bench [] [false]) ∧ (0 : Byte) ≠ 255 ∧ (255 : Byte) = 255 ∧
    (writeAnswer (bench [] [true])).ok = true ∧ (writeAnswer (bench [] [false])).ok = false :=
  ⟨ready_bench _ _, ready_bench _ _, by decide, rfl, rfl, rfl⟩
theorem witness_OffsetAdjustRule :
    Ready (bench [] [true]) ∧ Ready (bench [] [false]) ∧ (7 : Byte) ≠ 255 ∧
    (-125 ≤ (0xFF83 : Word).toInt ∧ (0xFF83 : Word).toInt ≤ 125) ∧ (-125 ≤ (125 : Word).toInt ∧ (125 : Word).toInt ≤ 125) ∧
    ¬(-125 ≤ (0xFF82 : Word).toInt ∧ (0xFF82 : Word).toInt ≤ 125) ∧
    (writeAnswer (bench [] [true])).ok = true ∧ (writeAnswer (bench [] [false])).ok = false :=
  ⟨ready_bench _ _, ready_bench _ _, by decide, by decide, by decide, by decide, rfl, rfl⟩
theorem witness_LimitWriteRules :
    Ready (bench [] [true]) ∧ Ready (bench [] [false]) ∧ (4 : Byte) ≠ 255 ∧
    ((999 : Word).toNat < (1000 : Word).toNat ∧ (1000 : Word).toNat ≤ 1000) ∧
    ¬((1000 : Word).toNat < (1000 : Word).toNat ∧ (1000 : Word).toNat ≤ 1000) ∧
    (4500 ≤ (4500 : Word).toNat ∧ (4500 : Word).toNat < (12000 : Word).toNat ∧ (12000 : Word).toNat ≤ 12000) ∧
    ¬(4500 ≤ (8000 : Word).toNat ∧ (8000 : Word).toNat < (8000 : Word).toNat ∧ (8000 : Word).toNat ≤ 12000) ∧
    (50 ≤ (50 : Word).toNat ∧ (50 : Word).toNat ≤ 100) ∧ ¬(50 ≤ (101 : Word).toNat ∧ (101 : Word).toNat ≤ 100) ∧
    (writeAnswer (bench [] [true])).ok = true ∧ (writeAnswer (bench [] [false])).ok = false :=
  ⟨ready_bench _ _, ready_bench _ _, by decide, by decide, by decide, by decide, by decide, by decide, by decide, rfl, rfl⟩
theorem witness_ModeWriteRules :
    Ready (bench [] [true]) ∧ Ready (bench [] [false]) ∧ (6 : Byte) ≠ 255 ∧ (1 : Word).toNat ≤ 1 ∧ ¬(2 : Word).toNat ≤ 1 ∧
    (writeAnswer (bench [] [true])).ok = true ∧ (writeAnswer (bench [] [false])).ok = false :=
  ⟨ready_bench _ _, ready_bench _ _, by decide, by decide, by decide, rfl, rfl⟩
theorem witness_WriteCommandsMakeOneCall :
    Ready (bench [] [true]) ∧ (∀ k, Cmd.ofCode 1 = some k → k.kind = .write) ∧ (∀ k, Cmd.ofCode 3 = some k → k.kind = .write) :=
  ⟨ready_bench _ _, fun k h => by cases h; rfl, fun _ h => nomatch h⟩

/-! ### Read commands and replies -/

/-- What meets the hypotheses of a read command's rule: each clause (ID 255, the failed `write`, no arrival, a reply at the
first poll), the last for the reply of its vector. -/
def ReadWitness (code : Byte) (id : Byte) (args : Args) (replyNp : BitVec 2) (reply : List Byte) : Prop :=
  Ready (bench [.arrive reply] [true]) ∧ id ≠ 255 ∧ (writeAnswer (bench [.arrive reply] [true])).ok = true ∧
  (255 : Byte) = 255 ∧ (writeAnswer (bench [] [false])).ok = false ∧ NoArrival (bench [] [true]) ∧
  1 ≤ (bench [.arrive reply] [true]).timing.nPoll ∧ (bench [.arrive reply] [true]).inputs = .arrive reply :: [] ∧
  (bench [.arrive reply] [true]).rxStore ++ reply = frameOf id code args ∧ args.np = replyNp

/-- What meets the hypotheses of a reply row's rule: an idle engine, and a poll of its command, with the right and with
a wrong checksum. -/
def ReplyWitness (id code : Byte) (args : Args) (chk : Byte) : Prop :=
  (bench [] []).phase ≠ .poll ∧
  ∃ s : State, s.phase = .poll ∧ s.resetIn = none ∧ s.pollCnt < s.timing.nPoll ∧ s.rxStore = [] ∧ s.xCmd = code ∧
    s.timing.corruptRetry = true ∧ chk = checksum (frameBody id code args) ∧
    chk + 1 ≠ checksum (frameBody id code args)

theorem readWitness {code id : Byte} {args : Args} {n : BitVec 2} {reply : List Byte} (h1 : id ≠ 255)
    (h2 : reply = frameOf id code args) (h3 : args.np = n) : ReadWitness code id args n reply :=
  ⟨ready_bench _ _, h1, rfl, rfl, rfl, noArrival_bench _, by show 1 ≤ 3; decide, rfl, h2, h3⟩
theorem replyWitness {code id : Byte} {args : Args} {chk : Byte} (h1 : chk = checksum (frameBody id code args))
    (h2 : chk + 1 ≠ checksum (frameBody id code args)) : ReplyWitness id code args chk :=
  ⟨by simp [bench, State.reset], { polling [] with xCmd := code }, rfl, rfl, by show 0 < 3; decide, rfl, rfl, rfl, h1, h2⟩

theorem witness_MotionReadRules :
    ReadWitness 2 5 (.two 512 1000) 2 [0x55, 0x55, 0x05, 0x07, 0x02, 0x00, 0x02, 0xE8, 0x03, 0x04] ∧
    ReadWitness 8 5 (.two 500 800) 2 [0x55, 0x55, 0x05, 0x07, 0x08, 0xF4, 0x01, 0x20, 0x03, 0xD3] ∧
    ReplyWitness 5 2 (.two 512 1000) 0x04 ∧ ReplyWitness 5 8 (.two 500 800) 0xD3 :=
  ⟨readWitness (by decide) rfl rfl, readWitness (by decide) rfl rfl, replyWitness rfl (by decide),
    replyWitness rfl (by decide)⟩
theorem witness_OffsetReadRules :
    ReadWitness 19 7 (.one 0xFF83) 1 [0x55, 0x55, 0x07, 0x05, 0x13, 0x83, 0xFF, 0x5E] ∧
    ReplyWitness 7 19 (.one 0xFF83) 0x5E :=
  ⟨readWitness (by decide) rfl rfl, replyWitness rfl (by decide)⟩
theorem witness_LimitReadRules :
    ReadWitness 21 4 (.two 900 100) 2 [0x55, 0x55, 0x04, 0x07, 0x15, 0x84, 0x03, 0x64, 0x00, 0xF4] ∧
    ReadWitness 23 4 (.two 6000 8400) 2 [0x55, 0x55, 0x04, 0x07, 0x17, 0x70, 0x17, 0xD0, 0x20, 0x66] ∧
    ReadWitness 25 4 (.one 85) 1 [0x55, 0x55, 0x04, 0x05, 0x19, 0x55, 0x00, 0x88] ∧
    ReplyWitness 4 21 (.two 900 100) 0xF4 ∧ ReplyWitness 4 23 (.two 6000 8400) 0x66 ∧ ReplyWitness 4 25 (.one 85) 0x88 :=
  ⟨readWitness (by decide) rfl rfl, readWitness (by decide) rfl rfl, readWitness (by decide) rfl rfl,
    replyWitness rfl (by decide), replyWitness rfl (by decide), replyWitness rfl (by decide)⟩
theorem witness_TelemetryReadRules :
    ReadWitness 26 4 (.one 37) 1 [0x55, 0x55, 0x04, 0x05, 0x1A, 0x25, 0x00, 0xB7] ∧
    ReadWitness 27 4 (.one 7412) 1 [0x55, 0x55, 0x04, 0x05, 0x1B, 0xF4, 0x1C, 0xCB] ∧
    ReadWitness 28 9 (.one 498) 1 rpl ∧ ReplyWitness 4 26 (.one 37) 0xB7 ∧ ReplyWitness 4 27 (.one 7412) 0xCB ∧
    ReplyWitness 9 28 (.one 498) 0xE2 :=
  ⟨readWitness (by decide) rfl rfl, readWitness (by decide) rfl rfl, readWitness (by decide) rfl rfl,
    replyWitness rfl (by decide), replyWitness rfl (by decide), replyWitness rfl (by decide)⟩
theorem witness_ModeReadRules :
    ReadWitness 30 6 (.two 1 0xFE0C) 2 [0x55, 0x55, 0x06, 0x07, 0x1E, 0x01, 0x00, 0x0C, 0xFE, 0xC9] ∧
    ReadWitness 32 6 (.one 2) 1 [0x55, 0x55, 0x06, 0x05, 0x20, 0x02, 0x00, 0xD2] ∧
    ReadWitness 34 6 (.one 1) 1 [0x55, 0x55, 0x06, 0x05, 0x22, 0x01, 0x00, 0xD1] ∧
    ReadWitness 36 6 (.one 7) 1 [0x55, 0x55, 0x06, 0x05, 0x24, 0x07, 0x00, 0xC9] ∧
    ReplyWitness 6 30 (.two 1 0xFE0C) 0xC9 ∧ ReplyWitness 6 32 (.one 2) 0xD2 ∧ ReplyWitness 6 34 (.one 1) 0xD1 ∧
    ReplyWitness 6 36 (.one 7) 0xC9 :=
  ⟨readWitness (by decide) rfl rfl, readWitness (by decide) rfl rfl, readWitness (by decide) rfl rfl,
    readWitness (by decide) rfl rfl, replyWitness rfl (by decide), replyWitness rfl (by decide), replyWitness rfl (by decide),
    replyWitness rfl (by decide)⟩
theorem witness_ReadCommandLaws :
    Ready (bench [.arrive rpl] [true]) ∧ (Instr.positionRead 9).isReply = false ∧
    (Instr.positionRead 9).fields.cmd.kind = .read ∧ (Instr.positionRead 9).fields.id ≠ 255 ∧
    (Instr.positionRead 255).fields.id = 255 ∧
    Cmd.ofCode 28 = some .positionRead ∧ Cmd.positionRead.kind = .read ∧ (Args.one 0).np ≠ 0 ∧
    gives (exec (.positionRead 9) (bench [.arrive rpl] [true])) (fun t => decide (t.resValid = true ∧ t.resStatus = .ok)) = true :=
  ⟨ready_bench _ _, rfl, rfl, by decide, rfl, rfl, rfl, by decide, by decide⟩
theorem witness_EmptyPollWaits :
    (polling [.arrive []]).phase = .poll ∧ (polling [.arrive []]).resetIn = none ∧
    (polling [.arrive []]).pollCnt + 1 < (polling [.arrive []]).timing.nPoll ∧ (polling [.arrive []]).rxStore = [] ∧
    (polling [.arrive []]).inputs = .arrive [] :: [] ∧ (polling [.arrive []]).outcome = .timeout ∧
    ({ polling [.arrive []] with pollCnt := 2 } : State).pollCnt < tp1.nPoll ∧
    tp1.nPoll ≤ ({ polling [.arrive []] with pollCnt := 2 } : State).pollCnt + 1 := by decide
theorem witness_RejectedBytesEndAttempt :
    (polling [.arrive [0]]).phase = .poll ∧ (polling [.arrive [0]]).resetIn = none ∧
    (polling [.arrive [0]]).pollCnt < (polling [.arrive [0]]).timing.nPoll ∧
    (polling [.arrive [0]]).inputs = .arrive [0] :: [] ∧ (polling [.arrive [0]]).rxStore ++ [0] ≠ [] ∧
    (∀ k id args, specAt 28 = some k → (polling [.arrive [0]]).rxStore ++ [0] = frameOf id 28 args →
      replyNpOf (some k) ≠ some args.np) ∧
    (polling [.arrive [0]]).timing.corruptRetry = true ∧
    ({ polling [.arrive [0]] with timing := { tp1 with corruptRetry := false } } : State).timing.corruptRetry = false :=
  ⟨rfl, rfl, by decide, rfl, by decide,
    fun _ _ args _ h => by cases args <;> simp [polling, bench, State.reset, frameOf, frameWith] at h, rfl, rfl⟩
theorem witness_EchoIsRejected :
    Inv (polling [.arrive req]) ∧ (polling [.arrive req]).phase = .poll ∧ (polling [.arrive req]).resetIn = none ∧
    (polling [.arrive req]).pollCnt < (polling [.arrive req]).timing.nPoll ∧ (polling [.arrive req]).rxStore = [] ∧
    (polling [.arrive req]).inputs = .arrive (polling [.arrive req]).txbuf :: [] ∧
    (polling [.arrive req]).timing.corruptRetry = true := ⟨inv_polling _, rfl, rfl, by decide, rfl, rfl, rfl⟩
theorem witness_RetryTransmitsAgain :
    Inv (asking true) ∧ (asking true).phase = .tx ∧ (asking true).resetIn = none ∧ (∃ r, Checked (asking true) (.read r)) ∧
    (writeAnswer (asking true)).ok = true ∧
    (Inv (asking false) ∧ (∃ r, Checked (asking false) (.read r)) ∧ (writeAnswer (asking false)).ok = false) :=
  ⟨inv_asking _, rfl, rfl, ⟨_, checked_asking _⟩, rfl, inv_asking _, ⟨_, checked_asking _⟩, rfl⟩
theorem witness_SettleThenReadMode : settling.phase = .settle ∧ settling.resetIn = none := ⟨rfl, rfl⟩

/-! ### The whole machine -/

theorem witness_TransitionTable :
    (bench [] []).phase = .idle ∧ (Inv checking ∧ checking.busy = true ∧ checking.resetIn = none) ∧
    (Inv (asking true) ∧ (asking true).busy = true ∧ (asking true).resetIn = none) ∧
    (Inv triggering ∧ triggering.busy = true ∧ triggering.resetIn = none) ∧
    (Inv settling ∧ settling.busy = true ∧ settling.resetIn = none) ∧
    (Inv (polling []) ∧ (polling []).busy = true ∧ (polling []).resetIn = none) :=
  ⟨rfl, ⟨inv_checking, rfl, rfl⟩, ⟨inv_asking _, rfl, rfl⟩, ⟨inv_triggering, rfl, rfl⟩, ⟨inv_settling, rfl, rfl⟩, ⟨inv_polling _, rfl, rfl⟩⟩
theorem witness_LatchesKeptWhileBusy :
    settling.busy = true ∧ settling.resetIn ≠ some 0 ∧ ∃ t, step settling = .next t := ⟨rfl, by decide, _, rfl⟩
theorem witness_TimingIsConstant : ∃ t, step settling = .next t := ⟨_, rfl⟩
theorem witness_ShadowWrittenOnlyOnOk :
    (bench [.present ⟨6, 31, .one 1⟩] [true]).resetIn = none ∧ Inv (bench [.present ⟨6, 31, .one 1⟩] [true]) ∧
    gives (step (bench [.present ⟨6, 31, .one 1⟩] [true])) (fun t =>
      decide (shadowGet t.shadow 6 ≠ shadowGet (bench [.present ⟨6, 31, .one 1⟩] [true]).shadow 6)) = true :=
  ⟨rfl, inv_bench _ _, by decide⟩
theorem witness_ShadowTraceDirNeverRead :
    blind settling = blind { settling with shadow := [(1, { fresh with load := some true })], trace := [.setReadMode], dir := .read } ∧
    (∃ t, step settling = .next t) ∧
    step (bench [.readReply] []) = .fault .noReplyValue ∧ step (bench [.bypass] []) = .refused .hostBypass :=
  ⟨rfl, ⟨_, rfl⟩, rfl, rfl⟩
theorem witness_DirectionAfterCommand :
    Ready (bench [] [true]) ∧ Inv (bench [] [true]) ∧
    refusedWith ⟨255, 11, .zero⟩ .outOfRange = true ∧ ends [] [false] .ioFailure 1 101 .write = true ∧
    ends (List.replicate 9 []) [true, true, true] .timeout 3 124 .read = true ∧ ends [rpl] [true] .ok 1 102 .read = true :=
  ⟨ready_bench _ _, inv_bench _ _, by decide, by decide, by decide, by decide⟩
theorem witness_StreamIsWritesInOrder :
    (bench [.present ⟨1, 11, .zero⟩] [true]).resetIn = none ∧
    gives (step (bench [.present ⟨1, 11, .zero⟩] [true])) (fun t => decide (hasFailedWrite t.trace = false)) = true :=
  ⟨rfl, by decide⟩

/-- A silent channel on TP1; the engine has been idle for 7 ticks. -/
def silent : State :=
  { bench (List.replicate 60 (.arrive [])) (List.replicate 20 true) with lapses := 7 :: 0 :: [] }

theorem witness_SilentChannelTimesOut :
    (Instr.positionRead 9).isReply = false ∧ (Instr.positionRead 9).fields.cmd.kind = .read ∧
    (Instr.positionRead 9).fields.id ≠ 255 ∧ Ready silent ∧ silent.timing.ok = true ∧ silent.rxStore = [] ∧
    (∀ x ∈ silent.inputs, x = Input.arrive []) ∧ silent.timing.tBudget * silent.timing.nPoll ≤ silent.inputs.length ∧
    silent.writes = ⟨true, 1, 0⟩ :: silent.writes.tail ∧ (∀ a ∈ silent.writes, a.ok = true) ∧
    silent.timing.tBudget ≤ silent.writes.length ∧ (⟨true, 1, 0⟩ : WriteAnswer).dur ≤ silent.timing.writeMax ∧
    silent.waits = 0 :: [0, 0, 0] ++ List.replicate 36 0 ∧ [0, 0, 0].length = silent.timing.nPoll ∧
    silent.timing.tSettle + 0 ≤ silent.timing.settleMax ∧ (∀ e ∈ [0, 0, 0], silent.timing.tPoll + e ≤ silent.timing.pollMax) ∧
    silent.lapses = 7 :: 0 :: [] :=
  ⟨rfl, rfl, by decide, ⟨rfl, rfl⟩, by decide, rfl, by decide, by decide, rfl, by decide, by decide, by decide, rfl, rfl,
    by decide, by decide, rfl⟩
theorem witness_ClockNeverGoesBack :
    (∃ t, step settling = .next t) ∧ settling.resetIn = none ∧
    (Instr.positionRead 9).isReply = false ∧ (Instr.positionRead 9).fields.cmd.kind = .read ∧
    (Instr.positionRead 9).fields.id ≠ 255 ∧ Ready (bench [.arrive rpl] [true]) ∧
    (bench [.arrive rpl] [true]).clock ≤ 100 ∧ (bench [.arrive rpl] [true]).clock ≤ 4000 :=
  ⟨⟨_, rfl⟩, rfl, rfl, rfl, by decide, ready_bench _ _, by decide, by decide⟩
theorem witness_EveryCommandEnds : Inv (polling []) ∧ (polling []).busy = true := ⟨inv_polling _, rfl⟩
theorem witness_EveryStepKeepsInvariant : Inv settling ∧ ∃ t, step settling = .next t := ⟨inv_settling, _, rfl⟩
theorem witness_AttemptsAreBounded :
    (Instr.positionRead 9).isReply = false ∧ (Instr.positionRead 9).fields.cmd.kind = .read ∧
    Ready (bench [] [true]) ∧ Inv (bench [] [true]) := ⟨rfl, rfl, ready_bench _ _, inv_bench _ _⟩

/-! ### The host -/

/-- An idle engine that holds the reply 498 of device 9. -/
def held (inputs : List Input) : State :=
  { bench inputs [] with
    xId := 9, xCmd := 28, resValid := true, resStatus := .ok, resId := 9, resCmd := 28, resNp := 1, resP0 := 498 }

theorem witness_HostReadsAreServed :
    (Ready (held [.readReply]) ∧ (held [.readReply]).inputs = .readReply :: [] ∧ replyHeld (held [.readReply]) = true) ∧
    (Ready (bench [.readReply] []) ∧ replyHeld (bench [.readReply] []) = false) ∧
    (Ready (bench [.readShadow 253] []) ∧ (bench [.readShadow 253] []).inputs = .readShadow 253 :: [] ∧
      (253 : Byte).toNat ≤ 253 ∧ 253 < (254 : Byte).toNat) ∧
    Status.timeout ≠ .ok ∧ (Cmd.trigger.kind = .write ∧ triggering.xCmd = Cmd.trigger.code) :=
  ⟨⟨⟨rfl, rfl⟩, rfl, rfl⟩, ⟨ready_bench _ _, rfl⟩, ⟨ready_bench _ _, rfl, by decide, by decide⟩, by decide, rfl, rfl⟩
theorem witness_StageThenTriggerTraffic :
    5 ≤ 5 ∧ Ready (bench [] (List.replicate 6 true)) ∧ (1000 : Word).toNat ≤ 1000 ∧ (30000 : Word).toNat ≤ 30000 ∧
    (bench [] (List.replicate 6 true)).writes =
      ⟨true, 1, 0⟩ :: ⟨true, 1, 0⟩ :: ⟨true, 1, 0⟩ :: ⟨true, 1, 0⟩ :: ⟨true, 1, 0⟩ :: ⟨true, 1, 0⟩ :: [] :=
  ⟨by decide, ready_bench _ _, by decide, by decide, rfl⟩
/-- Of `trigger 1`, `move-write 1, 1001, 0` and `stop 1` the first ends `Ok`, the second `OutOfRange`, and the third is not
issued. -/
theorem witness_MacroStopsAtFirstFailure :
    gives (runMacro [⟨1, 11, .zero⟩, ⟨1, 1, .two 1001 0⟩, ⟨1, 12, .zero⟩] (bench [] [true, true])) (fun t => decide (
      t.resValid = true ∧ t.resStatus = .outOfRange ∧ writesOf t.trace = [[0x55, 0x55, 0x01, 0x03, 0x0B, 0xF0]])) = true ∧
    gives (callCommand ⟨1, 11, .zero⟩ (bench [] [true, true])) (fun u => decide (u.resValid = true ∧ u.resStatus = .ok)) = true := by
  decide
theorem witness_FailedStageStopsMacro :
    5 ≤ 5 ∧ Ready (bench [] [true, false]) ∧ (1000 : Word).toNat ≤ 1000 ∧ (30000 : Word).toNat ≤ 30000 ∧
    (bench [] [true, false]).writes = ⟨true, 1, 0⟩ :: ⟨false, 1, 0⟩ :: [] :=
  ⟨by decide, ready_bench _ _, by decide, by decide, rfl⟩

end Sys2Proof.Tests
end

section
/-! SUPPORT. Proofs of the statements of `00_scope.md`: the document's ranges against the machine's checks, the passing of
time in every step, and what becomes of a command presented to an idle engine. -/

namespace Sys2Proof

/-! ## The document's ranges and the machine's checks -/

theorem firstFailure_isNone (checks : List (Bool × IllFormed)) :
    (firstFailure checks).isNone = true ↔ ∀ c ∈ checks, c.1 = true := by
  induction checks with
  | nil => simp [firstFailure]
  | cons c rest ih => cases h : c.1 <;> simp [firstFailure, h, ih]

/-- No check of a command fails exactly when the ID is one of R61 and the checks after it, which say `P`, hold. -/
theorem firstFailure_idCheck_isNone (id : Byte) {checks : List (Bool × IllFormed)} {P : Prop}
    (hP : (∀ c ∈ checks, c.1 = true) ↔ P) :
    (firstFailure (idCheck id :: checks)).isNone = true ↔ id ≠ 255 ∧ P := by
  have hid : id.toNat ≤ 254 ↔ id ≠ 255 := by bv_omega
  rw [firstFailure_isNone, List.forall_mem_cons, hP, idCheck, decide_eq_true_eq, hid]

theorem within_iff (lo hi v : Nat) : within lo hi v = true ↔ lo ≤ v ∧ v ≤ hi := by
  simp [within]

theorem limitPair_iff (lo hi : Nat) (low high : Word) :
    limitPair lo hi low high = true ↔ lo ≤ low.toNat ∧ low.toNat < high.toNat ∧ high.toNat ≤ hi := by
  simp only [limitPair, Bool.and_eq_true, within_iff, decide_eq_true_eq]
  omega

/-- The two ends of the unsigned range are the signed range of an offset (R6). -/
theorem offsetInRange_iff (v : Word) : offsetInRange v = true ↔ -125 ≤ v.toInt ∧ v.toInt ≤ 125 := by
  have := v.isLt
  simp only [offsetInRange, Bool.or_eq_true, decide_eq_true_eq, BitVec.toInt_eq_toNat_cond]
  split_ifs <;> omega

namespace Machine

/-- WellFormed and the checks of phase `CHECK` agree on every request (R6, R61; R165, R181). -/
theorem wf_iff_checks {i : Instr} (h : i.isReply = false) (s : State) :
    i.wf = true ↔ i.fields.id ≠ 255 ∧
      (specOf i.fields.cmd).rangeOk (accept i.portCmd s).xP0 (accept i.portCmd s).xP1 = true := by
  cases i with
  | moveWrite id p d | moveStageWrite id p d =>
    exact firstFailure_idCheck_isNone id (P := moveInRange p d = true) (by simp [moveChecks, within_iff, moveInRange_iff])
  | offsetAdjust id v =>
    exact firstFailure_idCheck_isNone id (P := offsetOk v = true) (by simp [offsetInRange_iff, offsetOk_iff])
  | rotationLimitWrite id l u =>
    exact firstFailure_idCheck_isNone id (P := rotationLimitsOk l u = true) (by simp [limitPair_iff, rotationLimitsOk_iff])
  | voltageLimitWrite id l u =>
    exact firstFailure_idCheck_isNone id (P := voltageLimitsOk l u = true) (by simp [limitPair_iff, voltageLimitsOk_iff])
  | tempLimitWrite id v =>
    exact firstFailure_idCheck_isNone id (P := tempLimitOk v = true) (by simp [within_iff, tempLimitOk_iff])
  | loadWrite id v =>
    exact firstFailure_idCheck_isNone id (P := loadOk v = true) (by simp [within_iff, loadOk_iff])
  | moveReadReply | moveStageReadReply | offsetReadReply | rotationLimitReadReply | voltageLimitReadReply
  | tempLimitReadReply | tempReadReply | voltageReadReply | positionReadReply | motorModeReadReply | loadReadReply
  | ledModeReadReply | ledFaultReadReply => cases h
  | _ => exact firstFailure_idCheck_isNone _ (iff_of_true (List.forall_mem_nil _) rfl)

/-! ## The passing of time -/

theorem clockReads_append (l m : List Event) : clockReads (l ++ m) = clockReads l ++ clockReads m := by
  induction l with
  | nil => rfl
  | cons e rest ih => cases e <;> simp [clockReads, ih]

/-- What time does between two states (R10, R12): the clock does not go back, and, unless a reset is coming, the trace
grows by events whose `now()` answers are in order and lie between the two clocks. -/
structure TimePasses (s t : State) : Prop where
  clock : s.clock ≤ t.clock
  reads : s.resetIn = none → t.resetIn = none ∧ ∃ more, t.trace = s.trace ++ more ∧
    (clockReads more).Pairwise (· ≤ ·) ∧ ∀ n ∈ clockReads more, s.clock ≤ n ∧ n ≤ t.clock

namespace TimePasses

/-- Calls that are no `now()`, or none at all. -/
theorem of_silent {s t : State} {more : List Event} (hc : s.clock ≤ t.clock) (hr : t.resetIn = s.resetIn)
    (ht : t.trace = s.trace ++ more) (hm : clockReads more = []) : TimePasses s t :=
  ⟨hc, fun h => ⟨hr.trans h, more, ht, by simp [hm], by simp [hm]⟩⟩

/-- One `now()`, to whose answer the clock moves. -/
theorem of_now {s t : State} (hc : t.clock = clockAnswer s) (hr : t.resetIn = s.resetIn)
    (ht : t.trace = s.trace ++ [.now (clockAnswer s)]) : TimePasses s t := by
  have hle : s.clock ≤ t.clock := hc ▸ clock_le_clockAnswer s
  exact ⟨hle, fun h => ⟨hr.trans h, _, ht, by simp [clockReads], by simpa [clockReads, ← hc] using hle⟩⟩

/-- Nothing that the clock, the trace or the reset countdown shows. -/
theorem of_same {s t : State} (hc : t.clock = s.clock) (hr : t.resetIn = s.resetIn) (ht : t.trace = s.trace) :
    TimePasses s t :=
  of_silent (more := []) hc.ge hr (by simp [ht]) rfl

theorem refl (s : State) : TimePasses s s := of_same rfl rfl rfl

theorem trans {s t u : State} (hst : TimePasses s t) (htu : TimePasses t u) : TimePasses s u := by
  refine ⟨hst.clock.trans htu.clock, fun h => ?_⟩
  obtain ⟨ht, m1, e1, p1, b1⟩ := hst.reads h
  obtain ⟨hu, m2, e2, p2, b2⟩ := htu.reads ht
  refine ⟨hu, m1 ++ m2, by rw [e2, e1, List.append_assoc], ?_, ?_⟩
  · rw [clockReads_append, List.pairwise_append]
    exact ⟨p1, p2, fun a ha b hb => (b1 a ha).2.trans (b2 b hb).1⟩
  · intro n hn
    rw [clockReads_append, List.mem_append] at hn
    rcases hn with hn | hn
    · exact ⟨(b1 n hn).1, (b1 n hn).2.trans htu.clock⟩
    · exact ⟨hst.clock.trans (b2 n hn).1, (b2 n hn).2⟩

/-- Time that passes from a state which the clock, the trace and the countdown do not tell from `s`. -/
theorem of_start {s t u : State} (h : TimePasses t u) (hc : t.clock = s.clock) (hr : t.resetIn = s.resetIn)
    (ht : t.trace = s.trace) : TimePasses s u :=
  (of_same hc hr ht).trans h

end TimePasses

/-! ## Time in the operations and the transitions -/

/-- The two calls of a transmission (R150, R154). -/
theorem transmit_trace (s : State) :
    (transmit s).trace = s.trace ++ [.setWriteMode, .write s.txbuf (writeAnswer s).ok] := by
  simp

theorem transmit_timePasses (s : State) : TimePasses s (transmit s) :=
  .of_silent (Nat.le_add_right _ _) rfl (transmit_trace s) rfl

theorem waitFor_timePasses (n : Nat) (s : State) : TimePasses s (waitFor n s) :=
  .of_silent (by rw [waitFor_clock]; omega) rfl (waitFor_trace s n) rfl

theorem settlePhase_timePasses (s : State) : TimePasses s (settlePhase s) :=
  .of_silent (by rw [settlePhase_clock]; omega) rfl ((settlePhase_trace s).trans (List.append_assoc ..)) rfl

theorem polled_timePasses (bytes : List Byte) (s : State) : TimePasses s (polled bytes s) :=
  .of_silent le_rfl rfl (polled_trace bytes s) rfl

theorem endAttempt_timePasses (s : State) : TimePasses s (endAttempt s) :=
  .of_now (endAttempt_clock s) (endAttempt_resetIn s) (endAttempt_trace s)

theorem raise_timePasses (e : Status) (s : State) : TimePasses s (raise e s) := .of_same rfl rfl rfl

/-- Everything phase `CHECK` can do, whatever the latches hold: an error, or the frame of a write command, or the frame
of a read command and the start of its query. -/
theorem checkPhase_outcomes (k : Option CmdSpec) (s : State) :
    (∃ e, checkPhase k s = raise e s) ∨ (∃ frame, checkPhase k s = { s with txbuf := frame, phase := .tx }) ∨
      ∃ frame, checkPhase k s = startQuery { s with txbuf := frame, phase := .tx } := by
  cases k with
  | none => exact .inl ⟨_, rfl⟩
  | some k =>
    simp only [checkPhase]
    split_ifs
    · exact .inl ⟨_, rfl⟩
    · exact .inl ⟨_, rfl⟩
    · exact .inl ⟨_, rfl⟩
    · split
      · exact .inl ⟨_, rfl⟩
      · cases k with
        | write _ => exact .inr (.inl ⟨_, rfl⟩)
        | read _ => exact .inr (.inr ⟨_, rfl⟩)

theorem checkPhase_timePasses (k : Option CmdSpec) (s : State) : TimePasses s (checkPhase k s) := by
  rcases checkPhase_outcomes k s with ⟨e, h⟩ | ⟨frame, h⟩ | ⟨frame, h⟩ <;> rw [h]
  · exact raise_timePasses e s
  · exact .of_same rfl rfl rfl
  · exact .of_now rfl rfl rfl

theorem txPhase_timePasses (k : Option CmdSpec) (s : State) : TimePasses s (txPhase k s) := by
  rcases k with _ | w | r
  · exact raise_timePasses _ s
  · rcases txPhase_write w s with ⟨-, h⟩ | ⟨-, h⟩ <;> rw [h]
    · exact (transmit_timePasses s).trans (.of_same (by simp) (by simp) (by simp))
    · exact (transmit_timePasses s).trans (raise_timePasses _ _)
  · have hs : TimePasses s (transmit (startAttempt s)) := (transmit_timePasses (startAttempt s)).of_start rfl rfl rfl
    rcases txPhase_read r s with ⟨-, h⟩ | ⟨-, h⟩ <;> rw [h]
    · exact hs.trans (.of_same rfl rfl rfl)
    · exact hs.trans (raise_timePasses _ _)

theorem pollWith_timePasses (k : Option CmdSpec) (bytes : List Byte) (s : State) :
    TimePasses s (pollWith k bytes s) := by
  have hp : TimePasses s (polled bytes s) := polled_timePasses bytes s
  have hcorrupt : TimePasses s { polled bytes s with outcome := .corrupt } := hp.trans (.of_same rfl rfl rfl)
  rcases pollWith_cases k bytes s with
    ⟨-, h⟩ | ⟨-, -, h⟩ | ⟨-, -, h⟩ | ⟨-, r, -, h⟩ | ⟨-, -, -, -, h⟩ | ⟨-, -, -, -, h⟩ <;> rw [h]
  · exact (endAttempt_timePasses _).of_start rfl rfl rfl
  · exact hp.trans (waitFor_timePasses _ _)
  · exact (hp.trans (waitFor_timePasses _ _)).trans (endAttempt_timePasses _)
  · exact hp.trans (.of_same rfl rfl rfl)
  · exact hcorrupt.trans (endAttempt_timePasses _)
  · exact hcorrupt.trans (raise_timePasses _ _)

theorem transition_timePasses (k : Option CmdSpec) (s : State) : TimePasses s (transition k s) := by
  cases hp : s.phase with
  | idle => rw [transition_idle hp]; exact .refl s
  | check => rw [transition_check hp]; exact checkPhase_timePasses k s
  | tx => rw [transition_tx hp]; exact txPhase_timePasses k s
  | settle => rw [transition_settle hp]; exact settlePhase_timePasses s
  | poll =>
    rw [transition_poll hp]
    exact (pollWith_timePasses k _ _).of_start (by simp) (by simp) (by simp)

theorem applyReset_timePasses {s : State} (h : s.resetIn = some 0) : TimePasses s (applyReset s) :=
  ⟨le_rfl, fun h' => by simp [h] at h'⟩

theorem tick_timePasses (k : Option CmdSpec) (s : State) : TimePasses s (tick k s) := by
  rw [tick]
  rcases underReset_cases (transition k) s with ⟨-, h⟩ | ⟨h0, h⟩ | ⟨n, h0, h⟩ <;> rw [h]
  · exact transition_timePasses k s
  · exact applyReset_timePasses h0
  · exact ⟨(transition_timePasses k { s with resetIn := some n }).clock, fun h' => by simp [h0] at h'⟩

theorem runCommand_timePasses (k : Option CmdSpec) (n : Nat) (s : State) : TimePasses s (runCommand k n s) :=
  runCommand_induct (fun t ht _ => ht.trans (tick_timePasses k t)) (.refl s) n

theorem present_timePasses (k : Option CmdSpec) (c : PortCmd) (s : State) : TimePasses s (present k c s) := by
  unfold present
  split
  · exact .refl s
  · exact (runCommand_timePasses k _ (accept c s)).of_start rfl rfl rfl

/-- A command that an idle engine meets is presented, with its own part when it is a request row (R25, R103). -/
theorem step_present_eq {s : State} {c : PortCmd} {rest : List Input} (hp : s.phase = .idle) (hr : s.resetIn ≠ some 0)
    (hi : s.inputs = .present c :: rest) :
    step s = .next (present ((decodeCommand c).map (specOf ·.fields.cmd)) c { s with inputs := rest }) := by
  rcases decodeCommand_cases c with ⟨i, k, hd, -, hq, -, hport, -⟩ | ⟨hd, -⟩
  · rw [(step_present hp hr hi).1 i hd, exec_request hq, hport, hd]; rfl
  · rw [(step_present hp hr hi).2 hd, hd]; rfl

/-- Everything a step that answers a next state can have done: the reset, one transition of a busy engine, a wait, or
what the next input of an idle engine asks for. -/
theorem step_next_cases {s t : State} (h : step s = .next t) :
    (s.resetIn = some 0 ∧ t = applyReset s) ∨
    (s.resetIn ≠ some 0 ∧ s.busy = true ∧ t = tick (specAt s.xCmd) s) ∨
    (s.resetIn ≠ some 0 ∧ s.phase = .idle ∧ ((s.inputs = [] ∧ t = waitIdle s) ∨ ∃ rest,
      (∃ c, s.inputs = .present c :: rest ∧
        t = present ((decodeCommand c).map (specOf ·.fields.cmd)) c { s with inputs := rest }) ∨
      (∃ bytes, s.inputs = .arrive bytes :: rest ∧ t = receive bytes { s with inputs := rest }) ∨
      (((s.inputs = .readReply :: rest ∧ replyHeld s = true) ∨
          ∃ id, s.inputs = .readShadow id :: rest ∧ id.toNat ≤ 253) ∧ t = { s with inputs := rest }))) := by
  by_cases hr : s.resetIn = some 0
  · rw [step_reset hr] at h
    cases h
    exact .inl ⟨hr, rfl⟩
  cases hb : s.busy with
  | true =>
    rw [step_busy hb hr] at h
    cases h
    exact .inr (.inl ⟨hr, rfl, rfl⟩)
  | false =>
    have hp : s.phase = .idle := by simpa [State.busy] using hb
    refine .inr (.inr ⟨hr, hp, ?_⟩)
    rcases step_idle_cases hp hr with
      ⟨hi, hs⟩ | ⟨c, rest, hi⟩ | ⟨bytes, rest, hi, hs⟩ | ⟨rest, hi, hs⟩ | ⟨id, rest, hi, hs⟩ | ⟨rest, -, hs⟩
    · rw [hs] at h; cases h; exact .inl ⟨hi, rfl⟩
    · rw [step_present_eq hp hr hi] at h; cases h; exact .inr ⟨rest, .inl ⟨c, hi, rfl⟩⟩
    · rw [hs] at h; cases h; exact .inr ⟨rest, .inr (.inl ⟨bytes, hi, rfl⟩)⟩
    · rw [hs] at h; split at h <;> cases h; exact .inr ⟨rest, .inr (.inr ⟨.inl ⟨hi, ‹_›⟩, rfl⟩)⟩
    · rw [hs] at h; split at h <;> cases h; exact .inr ⟨rest, .inr (.inr ⟨.inr ⟨id, hi, ‹_›⟩, rfl⟩)⟩
    · rw [hs] at h; cases h

theorem waitIdle_timePasses (s : State) : TimePasses s (waitIdle s) :=
  ⟨le_rfl, fun hr => ⟨by simp [waitIdle, hr], [], by simp [waitIdle], .nil, by simp [clockReads]⟩⟩

theorem step_timePasses {s t : State} (h : step s = .next t) : TimePasses s t := by
  rcases step_next_cases h with
    ⟨hr, rfl⟩ | ⟨-, -, rfl⟩ | ⟨-, -, ⟨-, rfl⟩ | ⟨rest, ⟨c, -, rfl⟩ | ⟨bytes, -, rfl⟩ | ⟨-, rfl⟩⟩⟩
  · exact applyReset_timePasses hr
  · exact tick_timePasses _ s
  · exact waitIdle_timePasses s
  · exact (present_timePasses _ c _).of_start rfl rfl rfl
  · exact .of_same rfl rfl rfl
  · exact .of_same rfl rfl rfl

/-! ## A query under way -/

/-- Past phase `CHECK`, with no reset coming: the start time and the frame of the query are fixed (R153, R154). -/
structure UnderWay (t0 : Nat) (frame : List Byte) (s : State) : Prop where
  checked : s.phase ≠ .check
  t0      : s.t0 = t0
  txbuf   : s.txbuf = frame
  noReset : s.resetIn = none

theorem endAttempt_phase_ne_check (s : State) : (endAttempt s).phase ≠ .check := by
  rcases endAttempt_cases s with ⟨-, h⟩ | ⟨-, h⟩ <;> rw [h] <;> simp

theorem txPhase_underWay {t0 : Nat} {frame : List Byte} (k : Option CmdSpec) {s : State} (h : UnderWay t0 frame s) :
    UnderWay t0 frame (txPhase k s) := by
  obtain ⟨-, h0, hf, hr⟩ := h
  rcases k with _ | w | r
  · exact ⟨by simp [txPhase], h0, hf, hr⟩
  · rcases txPhase_write w s with ⟨-, e⟩ | ⟨-, e⟩ <;> rw [e] <;> exact ⟨by simp, by simpa, by simpa, by simpa⟩
  · rcases txPhase_read r s with ⟨-, e⟩ | ⟨-, e⟩ <;> rw [e] <;> exact ⟨by simp, h0, hf, hr⟩

theorem pollWith_underWay {t0 : Nat} {frame : List Byte} (k : Option CmdSpec) (bytes : List Byte) {s : State}
    (h : UnderWay t0 frame s) : UnderWay t0 frame (pollWith k bytes s) := by
  obtain ⟨hp, h0, hf, hr⟩ := h
  have hend : ∀ u : State, u.t0 = t0 → u.txbuf = frame → u.resetIn = none → UnderWay t0 frame (endAttempt u) :=
    fun u hu hfu hru => ⟨endAttempt_phase_ne_check u, by simpa, by simpa, by simpa⟩
  rcases pollWith_cases k bytes s with
    ⟨-, e⟩ | ⟨-, -, e⟩ | ⟨-, -, e⟩ | ⟨-, r, -, e⟩ | ⟨-, -, -, -, e⟩ | ⟨-, -, -, -, e⟩ <;> rw [e]
  · exact hend _ h0 hf hr
  · exact ⟨hp, h0, hf, hr⟩
  · exact hend _ h0 hf hr
  · exact ⟨by simp, h0, hf, hr⟩
  · exact hend _ h0 hf hr
  · exact ⟨by simp, h0, hf, hr⟩

theorem tick_underWay {t0 : Nat} {frame : List Byte} (k : Option CmdSpec) {s : State} (h : UnderWay t0 frame s) :
    UnderWay t0 frame (tick k s) := by
  rw [tick_none h.noReset]
  cases hp : s.phase with
  | idle => rwa [transition_idle hp]
  | check => exact absurd hp h.checked
  | tx => rw [transition_tx hp]; exact txPhase_underWay k h
  | settle => rw [transition_settle hp]; exact ⟨by simp, h.t0, h.txbuf, h.noReset⟩
  | poll =>
    rw [transition_poll hp]
    have hd : UnderWay t0 frame (dropArrival s) := by
      obtain ⟨hc, h0, hf, hr⟩ := h
      exact ⟨by simpa, by simpa, by simpa, by simpa⟩
    exact pollWith_underWay k _ hd

theorem runCommand_underWay {t0 : Nat} {frame : List Byte} (k : Option CmdSpec) (n : Nat) {s : State}
    (h : UnderWay t0 frame s) : UnderWay t0 frame (runCommand k n s) :=
  runCommand_induct (fun _ ht _ => tick_underWay k ht) h n

/-- A read command on an idle engine that is not refused: its query begins at the next answer of `now()`, and what it
leaves comes of its first transmission (R153, R154). -/
theorem present_read_underWay {c : Cmd} {r : ReadSpec} {p : PortCmd} {s : State} (hk : specOf c = .read r)
    (hcode : p.code = c.code) (hnp : p.args.np = c.requestNp) (hs : Ready s) (hid : p.id ≠ 255) :
    UnderWay (clockAnswer s) (frameOf p.id p.code p.args) (present (some (specOf c)) p s) ∧
      TimePasses (transmit (startAttempt (startQuery (framed p s)))) (present (some (specOf c)) p s) := by
  rcases present_read hk hcode hnp hs with ⟨h, -⟩ | ⟨-, -, e⟩ | ⟨-, -, n, -, e⟩
  · exact absurd h hid
  · rw [e]
    exact ⟨⟨by simp, rfl, rfl, hs.noReset⟩, raise_timePasses _ _⟩
  · rw [e]
    have hasked : UnderWay (clockAnswer s) (frameOf p.id p.code p.args) (asked p s) :=
      ⟨by simp [asked], rfl, rfl, hs.noReset⟩
    exact ⟨runCommand_underWay _ n hasked,
      ((settlePhase_timePasses (requested p s)).trans (runCommand_timePasses _ n _)).of_start rfl rfl rfl⟩

/-- An error in phase `CHECK` leaves what R251 says: the latches, the code, and nothing else. -/
theorem raise_accept_refused (p : PortCmd) (e : Status) (s : State) : Refused s (raise e (accept p s)) p e where
  latched := ⟨rfl, rfl, rfl, (accept_latched p s).first, (accept_latched p s).second⟩
  phase := rfl
  resValid := rfl
  resStatus := rfl
  trace := rfl
  dir := rfl
  txbuf := rfl
  shadow := rfl
  wire := rfl
  clock := rfl
  writes := rfl
  kept := ⟨rfl, rfl, rfl, rfl, rfl, rfl, rfl, rfl, rfl, rfl, rfl, rfl⟩

/-- A request whose checks pass puts its frame into `txbuf` and hands it to the UART in one `write` (R150, R154, R165). -/
theorem present_sends {c : Cmd} {p : PortCmd} {s : State} (hcode : p.code = c.code) (hnp : p.args.np = c.requestNp)
    (hs : Ready s) (hid : p.id ≠ 255) (hr : (specOf c).rangeOk (accept p s).xP0 (accept p s).xP1 = true) :
    (present (some (specOf c)) p s).txbuf = frameOf p.id p.code p.args ∧
      ∃ more, (present (some (specOf c)) p s).trace = s.trace ++ more ∧
        Event.write (frameOf p.id p.code p.args) (writeAnswer s).ok ∈ more := by
  cases hk : specOf c with
  | write w =>
    replace hr : w.rangeOk (accept p s).xP0 (accept p s).xP1 = true := by rw [hk] at hr; exact hr
    rw [← hk]
    rcases present_write hk hcode hnp hs with ⟨h, -⟩ | ⟨-, -, -, e⟩ | ⟨-, -, -, e⟩
    · rw [hr] at h
      exact absurd (h.resolve_right (by simp)) hid
    · rw [e]
      exact ⟨by simp, [_, _], (updateShadow_trace _ w).trans (transmit_trace (framed p s)), by simp⟩
    · rw [e]
      exact ⟨rfl, [_, _], transmit_trace (framed p s), by simp⟩
  | read r =>
    rw [← hk]
    obtain ⟨hu, ht⟩ := present_read_underWay hk hcode hnp hs hid
    obtain ⟨-, more, e, -, -⟩ := ht.reads hs.noReset
    rw [transmit_trace] at e
    exact ⟨hu.txbuf, [.now (clockAnswer s), .setWriteMode, .write (frameOf p.id p.code p.args) (writeAnswer s).ok] ++ more,
      by rw [e]; simp, by simp⟩

/-- A request whose checks fail is refused before any I/O (R165). -/
theorem present_refuses {c : Cmd} {p : PortCmd} {s : State} (hcode : p.code = c.code) (hnp : p.args.np = c.requestNp)
    (hs : Ready s) (h : p.id = 255 ∨ (specOf c).rangeOk (accept p s).xP0 (accept p s).xP1 = false) :
    Refused s (present (some (specOf c)) p s) p .outOfRange := by
  have e : present (some (specOf c)) p s = raise .outOfRange (accept p s) := by
    cases hk : specOf c with
    | write w =>
      replace h : p.id = 255 ∨ w.rangeOk (accept p s).xP0 (accept p s).xP1 = false := by rw [hk] at h; exact h
      rw [← hk]
      rcases present_write hk hcode hnp hs with ⟨-, e⟩ | ⟨hid, hr, -⟩ | ⟨hid, hr, -⟩
      · exact e
      all_goals rw [hr] at h; exact absurd (h.resolve_right (by simp)) hid
    | read r =>
      rw [← hk]
      have hid : p.id = 255 := by simpa [hk, CmdSpec.rangeOk] using h
      rcases present_read hk hcode hnp hs with ⟨-, e⟩ | ⟨hne, -⟩ | ⟨hne, -⟩
      · exact e
      all_goals exact absurd hid hne
  rw [e]
  exact raise_accept_refused p _ s

/-- Settles O10: WellFormed and the checks of phase `CHECK` agree, and those checks alone decide between the refusal and
the transmission. -/
theorem wellFormedRequestsAreSent : Obligations.WellFormedRequestsAreSent := by
  intro i s hq hs
  obtain ⟨-, hnp, hframe⟩ := Instr.request_fields hq
  have hwf := wf_iff_checks hq s
  refine ⟨fun hw => ⟨_, exec_request hq s, present_refuses rfl hnp hs ?_⟩, fun hw => ⟨_, exec_request hq s, ?_⟩⟩
  · by_contra hne
    rw [not_or, Bool.not_eq_false] at hne
    rw [hwf.mpr hne] at hw
    cases hw
  · obtain ⟨hid, hr⟩ := hwf.mp hw
    rw [hframe]
    exact present_sends (p := i.portCmd) rfl hnp hs hid hr

/-- Settles O55: the clock by what every transition does to it, the start of a query by its first `now()`. -/
theorem clockNeverGoesBack : Obligations.ClockNeverGoesBack := by
  refine ⟨fun s t h => ?_, fun i s n hq hkind hid hs hn => ?_⟩
  · obtain ⟨hclock, hreads⟩ := step_timePasses h
    exact ⟨hclock, fun hr => (hreads hr).2⟩
  · obtain ⟨r, hk⟩ := specOf_read hkind
    obtain ⟨-, hnp, -⟩ := Instr.request_fields hq
    have hs' : Ready { s with lapses := (n - s.clock) :: s.lapses } := ⟨hs.idle, hs.noReset⟩
    refine ⟨_, exec_request hq _, ?_⟩
    rw [(present_read_underWay (p := i.portCmd) hk rfl hnp hs' hid).1.t0, clockAnswer_of_lapse rfl]
    exact Nat.add_sub_cancel' hn

end Machine
end Sys2Proof
end

section
/-! SUPPORT. Proofs of the statements of `10_state.md`: what every transition leaves of the latches, the parameters, the
inputs and the shadow file, the steps that take an input, the invariant at reset and in every step, and what no rule
reads. -/

namespace Sys2Proof.Machine

/-! ## The command in progress -/

/-- The latches (R21) and the parameters (R35) are as before. -/
structure CommandKept (s t : State) : Prop where
  xId    : t.xId = s.xId
  xCmd   : t.xCmd = s.xCmd
  xNp    : t.xNp = s.xNp
  xP0    : t.xP0 = s.xP0
  xP1    : t.xP1 = s.xP1
  timing : t.timing = s.timing

theorem CommandKept.refl (s : State) : CommandKept s s := ⟨rfl, rfl, rfl, rfl, rfl, rfl⟩

theorem CommandKept.trans {s t u : State} (h : CommandKept s t) (g : CommandKept t u) : CommandKept s u :=
  ⟨g.xId.trans h.xId, g.xCmd.trans h.xCmd, g.xNp.trans h.xNp, g.xP0.trans h.xP0, g.xP1.trans h.xP1,
    g.timing.trans h.timing⟩

theorem updateShadow_commandKept (w : WriteSpec) (s : State) : CommandKept s (updateShadow w s) := by
  constructor <;> simp

theorem dropArrival_commandKept (s : State) : CommandKept s (dropArrival s) := by
  constructor <;> simp

theorem endAttempt_commandKept (s : State) : CommandKept s (endAttempt s) := by
  constructor <;> simp

theorem checkPhase_commandKept (k : Option CmdSpec) (s : State) : CommandKept s (checkPhase k s) := by
  rcases checkPhase_outcomes k s with ⟨e, h⟩ | ⟨frame, h⟩ | ⟨frame, h⟩ <;> rw [h] <;>
    exact ⟨rfl, rfl, rfl, rfl, rfl, rfl⟩

theorem txPhase_commandKept (k : Option CmdSpec) (s : State) : CommandKept s (txPhase k s) := by
  rcases k with _ | w | r
  · exact ⟨rfl, rfl, rfl, rfl, rfl, rfl⟩
  · rcases txPhase_write w s with ⟨-, h⟩ | ⟨-, h⟩ <;> rw [h]
    · exact { updateShadow_commandKept w (transmit s) with }
    · exact ⟨rfl, rfl, rfl, rfl, rfl, rfl⟩
  · rcases txPhase_read r s with ⟨-, h⟩ | ⟨-, h⟩ <;> rw [h] <;> exact ⟨rfl, rfl, rfl, rfl, rfl, rfl⟩

theorem pollWith_commandKept (k : Option CmdSpec) (bytes : List Byte) (s : State) :
    CommandKept s (pollWith k bytes s) := by
  have hend : ∀ u, CommandKept s u → CommandKept s (endAttempt u) := fun u h => h.trans (endAttempt_commandKept u)
  rcases pollWith_cases k bytes s with
    ⟨-, h⟩ | ⟨-, -, h⟩ | ⟨-, -, h⟩ | ⟨-, r, -, h⟩ | ⟨-, -, -, -, h⟩ | ⟨-, -, -, -, h⟩ <;> rw [h]
  · exact hend _ ⟨rfl, rfl, rfl, rfl, rfl, rfl⟩
  · exact ⟨rfl, rfl, rfl, rfl, rfl, rfl⟩
  · exact hend _ ⟨rfl, rfl, rfl, rfl, rfl, rfl⟩
  · exact ⟨rfl, rfl, rfl, rfl, rfl, rfl⟩
  · exact hend _ ⟨rfl, rfl, rfl, rfl, rfl, rfl⟩
  · exact ⟨rfl, rfl, rfl, rfl, rfl, rfl⟩

/-- No transition writes a latch or a parameter. -/
theorem transition_commandKept (k : Option CmdSpec) (s : State) : CommandKept s (transition k s) := by
  cases hp : s.phase with
  | idle => rw [transition_idle hp]; exact .refl s
  | check => rw [transition_check hp]; exact checkPhase_commandKept k s
  | tx => rw [transition_tx hp]; exact txPhase_commandKept k s
  | settle => rw [transition_settle hp]; exact ⟨rfl, rfl, rfl, rfl, rfl, rfl⟩
  | poll =>
    rw [transition_poll hp]
    exact (dropArrival_commandKept s).trans (pollWith_commandKept k _ _)

/-- Short of the reset, one transition under the reset input is a transition of the engine, the countdown apart. -/
theorem tick_eq_transition (k : Option CmdSpec) {s : State} (hr : s.resetIn ≠ some 0) :
    ∃ r, tick k s = transition k { s with resetIn := r } := by
  rcases underReset_cases (transition k) s with ⟨-, h⟩ | ⟨h0, -⟩ | ⟨n, -, h⟩
  · exact ⟨s.resetIn, h⟩
  · exact absurd h0 hr
  · exact ⟨some n, h⟩

theorem tick_commandKept (k : Option CmdSpec) {s : State} (hr : s.resetIn ≠ some 0) : CommandKept s (tick k s) := by
  obtain ⟨r, h⟩ := tick_eq_transition k hr
  rw [h]
  exact { transition_commandKept k { s with resetIn := r } with }

theorem tick_timing (k : Option CmdSpec) (s : State) : (tick k s).timing = s.timing := by
  by_cases hr : s.resetIn = some 0
  · simp [tick, underReset, hr]
  · exact (tick_commandKept k hr).timing

theorem present_timing (k : Option CmdSpec) (c : PortCmd) (s : State) : (present k c s).timing = s.timing := by
  unfold present
  split
  · rfl
  · exact runCommand_induct (P := fun t => t.timing = s.timing) (s := accept c s)
      (fun t ht _ => (tick_timing k t).trans ht) rfl _

/-! ## What a transition takes from the inputs -/

theorem checkPhase_inputs (k : Option CmdSpec) (s : State) : (checkPhase k s).inputs = s.inputs := by
  rcases checkPhase_outcomes k s with ⟨e, h⟩ | ⟨frame, h⟩ | ⟨frame, h⟩ <;> rw [h] <;> rfl

theorem txPhase_inputs (k : Option CmdSpec) (s : State) : (txPhase k s).inputs = s.inputs := by
  rcases k with _ | w | r
  · rfl
  · rcases txPhase_write w s with ⟨-, h⟩ | ⟨-, h⟩ <;> simp [h]
  · rcases txPhase_read r s with ⟨-, h⟩ | ⟨-, h⟩ <;> simp [h]

theorem pollWith_inputs (k : Option CmdSpec) (bytes : List Byte) (s : State) :
    (pollWith k bytes s).inputs = s.inputs := by
  rcases pollWith_cases k bytes s with
    ⟨-, h⟩ | ⟨-, -, h⟩ | ⟨-, -, h⟩ | ⟨-, r, -, h⟩ | ⟨-, -, -, -, h⟩ | ⟨-, -, -, -, h⟩ <;> simp [h]

theorem dropArrival_inputs {s : State} (h : NoArrival s) : (dropArrival s).inputs = s.inputs := by
  unfold dropArrival
  split
  · exact absurd ‹_› (h _ _)
  · rfl

/-- A transition takes nothing but an arrival from the inputs. -/
theorem transition_inputs (k : Option CmdSpec) {s : State} (h : NoArrival s) :
    (transition k s).inputs = s.inputs := by
  cases hp : s.phase with
  | idle => rw [transition_idle hp]
  | check => rw [transition_check hp, checkPhase_inputs]
  | tx => rw [transition_tx hp, txPhase_inputs]
  | settle => rw [transition_settle hp, settlePhase_inputs]
  | poll => rw [transition_poll hp, pollNext, pollWith_inputs, dropArrival_inputs h]

/-! ## Latches and parameters in every step -/

/-- Settles O40: a step of a busy engine is one transition under the reset input, and no transition writes a latch. -/
theorem latchesKeptWhileBusy : Obligations.LatchesKeptWhileBusy := by
  intro s t hb hr h
  rw [step_busy hb hr] at h
  cases h
  obtain ⟨h0, h1, h2, h3, h4, -⟩ := tick_commandKept (specAt s.xCmd) hr
  exact ⟨h0, h1, h2, h3, h4⟩

/-- Settles O41, by what a step can be. -/
theorem timingIsConstant : Obligations.TimingIsConstant := by
  intro s t h
  rcases step_next_cases h with
    ⟨-, rfl⟩ | ⟨-, -, rfl⟩ | ⟨-, -, ⟨-, rfl⟩ | ⟨rest, ⟨c, -, rfl⟩ | ⟨bytes, -, rfl⟩ | ⟨-, rfl⟩⟩⟩
  · rfl
  · exact tick_timing _ s
  · rfl
  · exact present_timing _ c _
  · rfl
  · rfl

/-- Settles O16: acceptance by its definition, a busy engine by what a transition leaves of the inputs and the
latches. -/
theorem busyRefusesCommands : Obligations.BusyRefusesCommands := by
  refine ⟨fun c s _ => ⟨accept_latched c s, rfl, rfl⟩, fun i s hq hb => ?_, fun c rest s hb hr hi => ?_⟩
  · rw [exec_request hq, present_busy hb]
  · have hport : NoArrival s := fun bytes later h => by simp [hi] at h
    have hinputs : (tick (specAt s.xCmd) s).inputs = s.inputs := by
      obtain ⟨r, h⟩ := tick_eq_transition (specAt s.xCmd) hr
      rw [h]
      exact transition_inputs (s := { s with resetIn := r }) _ hport
    obtain ⟨h0, h1, h2, h3, h4, -⟩ := tick_commandKept (specAt s.xCmd) hr
    exact ⟨_, step_busy hb hr, hinputs, h0, h1, h2, h3, h4⟩

/-! ## The invariant -/

/-- What the invariant says in every phase alike. -/
structure Steady (s : State) : Prop where
  shadowCanonical : shadowWf s.shadow = true
  shadowLegal     : ∀ e ∈ s.shadow, e.2.legal = true
  rxbufEmpty      : s.rxbuf = []
  statusOfCommand : s.resStatus ≠ .decodeEmpty ∧ s.resStatus ≠ .decodeCorrupt
  timingOk        : s.timing.ok = true
  attemptsBound   : s.attempts = 0 ∨ (s.attempts - 1) * s.timing.tSettle < s.timing.tBudget

theorem Inv.steady {s : State} (h : Inv s) : Steady s :=
  ⟨h.shadowCanonical, h.shadowLegal, h.rxbufEmpty, h.statusOfCommand, h.timingOk, h.attemptsBound⟩

theorem Inv.noResult {s : State} {p : Phase} (h : Inv s) (hp : s.phase = p) (hbusy : p ≠ .idle := by decide) :
    s.resValid = false :=
  h.busyNoResult (by simpa [State.busy, hp] using hbusy)

theorem Steady.inv_idle {s : State} (h : Steady s) (hp : s.phase = .idle) : Inv s := by
  refine { h with
    busyNoResult := ?_, txChecked := ?_, settleChecked := ?_, pollChecked := ?_, settleWrites := ?_, pollReads := ?_
    txTime := ?_, settleTime := ?_, pollTime := ?_ } <;> simp [hp, State.busy]

theorem Steady.inv_check {s : State} (h : Steady s) (hp : s.phase = .check) (hv : s.resValid = false) : Inv s := by
  refine { h with
    busyNoResult := fun _ => hv
    txChecked := ?_, settleChecked := ?_, pollChecked := ?_, settleWrites := ?_, pollReads := ?_
    txTime := ?_, settleTime := ?_, pollTime := ?_ } <;> simp [hp]

theorem Steady.inv_tx {s : State} {k : CmdSpec} (h : Steady s) (hp : s.phase = .tx) (hv : s.resValid = false)
    (hc : Checked s k) (ht : (∃ r, k = .read r) → s.t0 + s.attempts * s.timing.tSettle ≤ s.clock ∧
      (s.attempts = 0 ∨ s.clock < s.t0 + s.timing.tBudget)) : Inv s := by
  refine { h with
    busyNoResult := fun _ => hv
    txChecked := fun _ => ⟨k, hc⟩
    txTime := fun _ ⟨r, hr⟩ => ht ⟨r, Option.some.inj (hc.known.symm.trans hr.known)⟩
    settleChecked := ?_, pollChecked := ?_, settleWrites := ?_, pollReads := ?_, settleTime := ?_, pollTime := ?_ } <;>
    simp [hp]

theorem Steady.inv_settle {s : State} {r : ReadSpec} (h : Steady s) (hp : s.phase = .settle) (hv : s.resValid = false)
    (hc : Checked s (.read r)) (hd : s.dir = .write)
    (ht : 1 ≤ s.attempts ∧ s.t0 + (s.attempts - 1) * s.timing.tSettle ≤ s.clock) : Inv s := by
  refine { h with
    busyNoResult := fun _ => hv
    settleChecked := fun _ => ⟨r, hc⟩
    settleWrites := fun _ => hd
    settleTime := fun _ => ht
    txChecked := ?_, pollChecked := ?_, pollReads := ?_, txTime := ?_, pollTime := ?_ } <;> simp [hp]

theorem Steady.inv_poll {s : State} {r : ReadSpec} (h : Steady s) (hp : s.phase = .poll) (hv : s.resValid = false)
    (hc : Checked s (.read r)) (hd : s.dir = .read)
    (ht : 1 ≤ s.attempts ∧ s.t0 + s.attempts * s.timing.tSettle ≤ s.clock) : Inv s := by
  refine { h with
    busyNoResult := fun _ => hv
    pollChecked := fun _ => ⟨r, hc⟩
    pollReads := fun _ => hd
    pollTime := fun _ => ht
    txChecked := ?_, settleChecked := ?_, settleWrites := ?_, txTime := ?_, settleTime := ?_ } <;> simp [hp]

/-- The end of a command with a result of its own keeps the invariant. -/
theorem Steady.inv_end {s : State} (h : Steady s) {r : Status} (hr : r ≠ .decodeEmpty ∧ r ≠ .decodeCorrupt) :
    Inv (endWithoutReply r s) :=
  Steady.inv_idle ⟨h.shadowCanonical, h.shadowLegal, h.rxbufEmpty, hr, h.timingOk, h.attemptsBound⟩ rfl

/-- The invariant does not speak of the reset input, the inputs, the receive store and the counters of the free
values. -/
theorem Inv.outside {s : State} (h : Inv s) (resetIn : Option Nat) (inputs : List Input) (rxStore : List Byte)
    (draws : Draws) : Inv { s with resetIn, inputs, rxStore, draws } := by
  have hc : ∀ k, Checked { s with resetIn, inputs, rxStore, draws } k ↔ Checked s k := fun k =>
    ⟨fun hk => { hk with }, fun hk => { hk with }⟩
  exact { h with
    txChecked := by simpa [hc] using h.txChecked
    settleChecked := by simpa [hc] using h.settleChecked
    pollChecked := by simpa [hc] using h.pollChecked
    txTime := by simpa [hc] using h.txTime }

theorem Inv.dropArrival {s : State} (h : Inv s) : Inv (dropArrival s) := by
  unfold Machine.dropArrival
  split
  · exact h.outside s.resetIn _ s.rxStore s.draws
  · exact h.outside s.resetIn s.inputs s.rxStore _

theorem Inv.receive {s : State} (h : Inv s) (bytes : List Byte) : Inv (receive bytes s) :=
  h.outside s.resetIn s.inputs _ s.draws

theorem Inv.applyReset {s : State} (h : Inv s) : Inv (applyReset s) :=
  have hs : Steady (Machine.applyReset s) :=
    ⟨rfl, fun _ he => (nomatch he), rfl, ⟨Status.noConfusion, Status.noConfusion⟩, h.timingOk, .inl rfl⟩
  hs.inv_idle rfl

/-- Acceptance keeps the invariant (R25). -/
theorem Inv.accept {s : State} (h : Inv s) (c : PortCmd) : Inv (accept c s) :=
  have hs : Steady (Machine.accept c s) := { h with }
  hs.inv_check rfl rfl

/-- The command's own part with which the machine makes a transition is that of the latches, or none. -/
def Serves (k : Option CmdSpec) (s : State) : Prop := ∀ k', k = some k' → specAt s.xCmd = some k'

theorem Inv.checkPhase {k : Option CmdSpec} {s : State} (h : Inv s) (hk : Serves k s) (hv : s.resValid = false) :
    Inv (checkPhase k s) := by
  rcases k with _ | k
  · exact h.steady.inv_end (by decide)
  · obtain ⟨c, -, hc, rfl⟩ := specAt_some (hk _ rfl)
    rcases checkPhase_cases hc with ⟨-, e⟩ | ⟨-, -, e⟩ | ⟨hnp, hid, hr, frame, hf, ⟨w, hw, e⟩ | ⟨r, hw, e⟩⟩ <;> rw [e]
    · exact h.steady.inv_end (by decide)
    · exact h.steady.inv_end (by decide)
    · have hs : Steady { s with txbuf := frame, phase := .tx } := { h with }
      have hck : Checked { s with txbuf := frame, phase := .tx } (specOf c) :=
        ⟨hk _ rfl, by simpa using hnp, hid, hr, hf⟩
      exact hs.inv_tx rfl hv hck fun ⟨r, hr⟩ => by simp [hw] at hr
    · have hs : Steady (startQuery { s with txbuf := frame, phase := .tx }) := { h with attemptsBound := .inl rfl }
      have hck : Checked (startQuery { s with txbuf := frame, phase := .tx }) (specOf c) :=
        ⟨hk _ rfl, by simpa using hnp, hid, hr, hf⟩
      exact hs.inv_tx rfl hv hck fun _ => by simp

/-- The shadow update of a checked write command keeps the shadow file canonical and legal (R30). -/
theorem Steady.updateShadow {s : State} {w : WriteSpec} (h : Steady s) (hk : Checked s (.write w)) :
    Steady (updateShadow w s) := by
  obtain ⟨c, -, -, hw⟩ := specAt_some hk.known
  unfold Machine.updateShadow
  split
  · exact h
  · rename_i f hf
    split
    · rename_i hid
      have hlegal : (f s.xP0 s.xP1 (shadowGet s.shadow s.xId.toNat)).legal = true :=
        update_legal hw.symm hf hk.range (shadowGet_legal h.shadowLegal _)
      exact { h with
        shadowCanonical := shadowWf_set _ h.shadowCanonical hid
        shadowLegal := fun e he => (mem_shadowSet he).elim (h.shadowLegal e) fun he => he ▸ hlegal }
    · exact h

theorem Inv.txPhase {k : Option CmdSpec} {s : State} (h : Inv s) (hk : Serves k s) (hp : s.phase = .tx) :
    Inv (txPhase k s) := by
  obtain ⟨k', hc⟩ := h.txChecked hp
  have hk' : ∀ j, k = some j → j = k' := fun j hj => Option.some.inj ((hk j hj).symm.trans hc.known)
  rcases k with _ | w | r
  · exact h.steady.inv_end (by decide)
  · obtain rfl := hk' _ rfl
    have hs : Steady (transmit s) := { h with }
    rcases txPhase_write w s with ⟨-, e⟩ | ⟨-, e⟩ <;> rw [e]
    · exact (hs.updateShadow { hc with }).inv_end (by decide)
    · exact hs.inv_end (by decide)
  · obtain rfl := hk' _ rfl
    obtain ⟨hlow, hhigh⟩ := h.txTime hp ⟨r, hc⟩
    have hbound : s.attempts * s.timing.tSettle < s.timing.tBudget := by
      have := Timing.ok_asked h.timingOk
      rcases hhigh with hfirst | hlt
      · rw [hfirst]; omega
      · omega
    have hs : Steady (transmit (startAttempt s)) := { h with attemptsBound := .inr (by simpa using hbound) }
    rcases txPhase_read r s with ⟨-, e⟩ | ⟨-, e⟩ <;> rw [e]
    · have hs' : Steady { transmit (startAttempt s) with phase := .settle } := { hs with }
      refine hs'.inv_settle rfl (h.noResult hp) { hc with } rfl ?_
      simp; omega
    · exact hs.inv_end (by decide)

theorem Inv.settlePhase {s : State} (h : Inv s) (hp : s.phase = .settle) : Inv (settlePhase s) := by
  obtain ⟨r, hc⟩ := h.settleChecked hp
  obtain ⟨hone, htime⟩ := h.settleTime hp
  have hs : Steady (Machine.settlePhase s) := { h with }
  refine hs.inv_poll rfl (h.noResult hp) { hc with } rfl ⟨hone, ?_⟩
  obtain ⟨n, hn⟩ := Nat.exists_eq_add_of_le' hone
  simp [hn, Nat.succ_mul] at htime ⊢
  omega

/-- What a poll changes of a polling engine keeps the invariant, if the clock does not go back. -/
theorem Inv.polls {s : State} (h : Inv s) (hp : s.phase = .poll) {clock : Nat} (hclock : s.clock ≤ clock)
    (pollCnt : Nat) (outcome : AttemptOutcome) (rxStore : List Byte) (trace : List Event) (waits : List Nat)
    (draws : Draws) : Inv { s with pollCnt, outcome, rxbuf := [], rxStore, trace, clock, waits, draws } := by
  obtain ⟨r, hc⟩ := h.pollChecked hp
  obtain ⟨hone, htime⟩ := h.pollTime hp
  have hs : Steady { s with pollCnt, outcome, rxbuf := [], rxStore, trace, clock, waits, draws } :=
    { h with rxbufEmpty := rfl }
  exact hs.inv_poll hp (h.noResult hp) { hc with } (h.pollReads hp) ⟨hone, htime.trans hclock⟩

theorem Inv.endAttempt {s : State} (h : Inv s) (hp : s.phase = .poll) : Inv (endAttempt s) := by
  obtain ⟨r, hc⟩ := h.pollChecked hp
  obtain ⟨hone, htime⟩ := h.pollTime hp
  have hs : Steady (readClock s) := { h with }
  rcases endAttempt_cases s with ⟨-, e⟩ | ⟨hb, e⟩ <;> rw [e]
  · exact hs.inv_end (by cases s.outcome <;> decide)
  · have hs' : Steady { readClock s with phase := .tx } := { hs with }
    refine hs'.inv_tx rfl (h.noResult hp) { hc with } fun _ => ?_
    have := clock_le_clockAnswer s
    simp; omega

theorem Inv.pollWith {s : State} (h : Inv s) (hp : s.phase = .poll) (k : Option CmdSpec) (bytes : List Byte) :
    Inv (pollWith k bytes s) := by
  have hpolled : Inv (polled bytes s) := h.polls hp le_rfl _ _ _ _ _ _
  have hcorrupt : Inv { polled bytes s with outcome := .corrupt } := h.polls hp le_rfl _ _ _ _ _ _
  have hwaited : Inv (waitFor s.timing.tPoll (polled bytes s)) :=
    hpolled.polls hp (by simp; omega) _ _ _ _ _ _
  rcases pollWith_cases k bytes s with
    ⟨-, e⟩ | ⟨-, -, e⟩ | ⟨-, -, e⟩ | ⟨-, r, -, e⟩ | ⟨-, -, -, -, e⟩ | ⟨-, -, -, -, e⟩ <;> rw [e]
  · exact (h.receive bytes).endAttempt hp
  · exact hwaited
  · exact hwaited.endAttempt hp
  · have hs : Steady (endWithReply r (polled bytes s)) := { hpolled with statusOfCommand := by simp }
    exact hs.inv_idle rfl
  · exact hcorrupt.endAttempt hp
  · exact hcorrupt.steady.inv_end (by decide)

/-- Every transition keeps the invariant. -/
theorem Inv.transition {k : Option CmdSpec} {s : State} (h : Inv s) (hk : Serves k s) : Inv (transition k s) := by
  cases hp : s.phase with
  | idle => rwa [transition_idle hp]
  | check => rw [transition_check hp]; exact h.checkPhase hk (h.noResult hp)
  | tx => rw [transition_tx hp]; exact h.txPhase hk hp
  | settle => rw [transition_settle hp]; exact h.settlePhase hp
  | poll => rw [transition_poll hp]; exact h.dropArrival.pollWith (by simpa) k _

/-- So does every transition under the reset input. -/
theorem Inv.tick {k : Option CmdSpec} {s : State} (h : Inv s) (hk : Serves k s) : Inv (tick k s) := by
  by_cases hr : s.resetIn = some 0
  · rw [Machine.tick, underReset, hr]
    exact h.applyReset
  · obtain ⟨r, e⟩ := tick_eq_transition k hr
    rw [e]
    exact (h.outside r s.inputs s.rxStore s.draws).transition hk

/-- A run serves its command until it ends, or the reset comes. -/
theorem tick_serves {k : Option CmdSpec} {s : State} (hk : Serves k s) :
    (tick k s).phase = .idle ∨ Serves k (tick k s) := by
  by_cases hr : s.resetIn = some 0
  · rw [tick, underReset, hr]; exact .inl rfl
  · exact .inr fun k' h => by rw [(tick_commandKept k hr).xCmd]; exact hk k' h

theorem Inv.runCommand {k : Option CmdSpec} {s : State} (h : Inv s) (hk : Serves k s) (n : Nat) :
    Inv (runCommand k n s) := by
  refine (runCommand_induct (P := fun t => Inv t ∧ (t.phase = .idle ∨ Serves k t)) ?_ ⟨h, .inr hk⟩ n).1
  rintro t ⟨ht, hidle | hkt⟩ hrest
  · simp [atRest_idle hidle] at hrest
  · exact ⟨ht.tick hkt, tick_serves hkt⟩

/-- The command on the port is run with its own part (R110), or with none when it is no request. -/
theorem accept_serves (c : PortCmd) (s : State) :
    Serves ((decodeCommand c).map (specOf ·.fields.cmd)) (accept c s) := by
  rcases decodeCommand_cases c with ⟨i, k, hd, hk, -, rfl, -, -⟩ | ⟨hd, -⟩
  · simp [Serves, hd, specAt, hk]
  · simp [Serves, hd]

theorem Inv.present {s : State} (h : Inv s) (c : PortCmd) :
    Inv (present ((decodeCommand c).map (specOf ·.fields.cmd)) c s) := by
  unfold Machine.present
  split
  · exact h
  · exact (h.accept c).runCommand (accept_serves c s) _

/-- Settles O48: the phase is `IDLE`, and the parameters are admissible whatever they are. -/
theorem invariantAtReset : Obligations.InvariantAtReset :=
  have hs : Steady State.reset :=
    ⟨reset_shadow_wf, fun _ he => (nomatch he), rfl, ⟨Status.noConfusion, Status.noConfusion⟩, Config.timing_ok,
      .inl rfl⟩
  hs.inv_idle rfl

/-- Settles O49, by what a step can be: the reset, a transition with the latches' own command, or the taking of an
input, a presented command among them. -/
theorem everyStepKeepsInvariant : Obligations.EveryStepKeepsInvariant := by
  intro s t h hstep
  have hrest : ∀ inputs, Inv { s with inputs } := fun inputs => h.outside s.resetIn inputs s.rxStore s.draws
  rcases step_next_cases hstep with
    ⟨-, rfl⟩ | ⟨-, -, rfl⟩ | ⟨-, -, ⟨-, rfl⟩ | ⟨rest, ⟨c, -, rfl⟩ | ⟨bytes, -, rfl⟩ | ⟨-, rfl⟩⟩⟩
  · exact h.applyReset
  · exact h.tick fun _ hk => hk
  · exact h.outside _ s.inputs s.rxStore s.draws
  · exact (hrest rest).present c
  · exact (hrest rest).receive bytes
  · exact hrest rest

/-! ## The end of a write command -/

/-- A write command has ended `Ok`, and only the snapshot of its unicast ID may differ from that in `shadow` (R31,
R32). -/
structure WriteEnded (shadow : List (Nat × ServoState)) (t : State) : Prop where
  phase     : t.phase = .idle
  resValid  : t.resValid = true
  resStatus : t.resStatus = .ok
  kind      : (Cmd.ofCode t.xCmd).map Cmd.kind = some .write
  others    : ∀ j, shadowGet t.shadow j ≠ shadowGet shadow j → j = t.xId.toNat ∧ j ≤ 253

theorem updateShadow_others {c : Cmd} {w : WriteSpec} (hw : specOf c = .write w) {s : State} {j : Nat}
    (h : shadowGet (updateShadow w s).shadow j ≠ shadowGet s.shadow j) : j = s.xId.toNat ∧ j ≤ 253 := by
  rw [updateShadow_get hw] at h
  split at h
  · exact absurd rfl h
  · split at h
    · rename_i hj
      exact ⟨hj.1, hj.1 ▸ hj.2⟩
    · exact absurd rfl h

theorem txPhase_shadow {k : Option CmdSpec} {s : State} (hk : Serves k s) :
    (txPhase k s).shadow = s.shadow ∨ WriteEnded s.shadow (txPhase k s) := by
  rcases k with _ | w | r
  · exact .inl rfl
  · rcases txPhase_write w s with ⟨-, e⟩ | ⟨-, e⟩ <;> rw [e]
    · obtain ⟨c, hc, -, hw⟩ := specAt_some (hk _ rfl)
      have hkind : (Cmd.ofCode s.xCmd).map Cmd.kind = some .write := by simp [hc, kind_of_specOf_write hw.symm]
      exact .inr ⟨rfl, rfl, rfl, by simpa using hkind,
        fun j hj => by simpa using updateShadow_others (s := transmit s) hw.symm hj⟩
    · exact .inl rfl
  · rcases txPhase_read r s with ⟨-, e⟩ | ⟨-, e⟩ <;> rw [e] <;> exact .inl rfl

theorem checkPhase_shadow (k : Option CmdSpec) (s : State) : (checkPhase k s).shadow = s.shadow := by
  rcases checkPhase_outcomes k s with ⟨e, h⟩ | ⟨frame, h⟩ | ⟨frame, h⟩ <;> rw [h] <;> rfl

theorem pollWith_shadow (k : Option CmdSpec) (bytes : List Byte) (s : State) :
    (pollWith k bytes s).shadow = s.shadow := by
  rcases pollWith_cases k bytes s with
    ⟨-, h⟩ | ⟨-, -, h⟩ | ⟨-, -, h⟩ | ⟨-, r, -, h⟩ | ⟨-, -, -, -, h⟩ | ⟨-, -, -, -, h⟩ <;> simp [h]

/-- A transition leaves the shadow file, or it is the end of a write command. -/
theorem transition_shadow {k : Option CmdSpec} {s : State} (hk : Serves k s) :
    (transition k s).shadow = s.shadow ∨ WriteEnded s.shadow (transition k s) := by
  cases hp : s.phase with
  | idle => rw [transition_idle hp]; exact .inl rfl
  | check => rw [transition_check hp]; exact .inl (checkPhase_shadow k s)
  | tx => rw [transition_tx hp]; exact txPhase_shadow hk
  | settle => rw [transition_settle hp]; exact .inl rfl
  | poll => rw [transition_poll hp, pollNext, pollWith_shadow, dropArrival_shadow]; exact .inl rfl

/-- What every transition of a run keeps, with no reset coming: the command is not ended and the shadow file as at the
start, or it is a write command that has ended. -/
theorem runCommand_shadow {k : Option CmdSpec} {s : State} (hr : s.resetIn = none) (hk : Serves k s) (n : Nat) :
    (runCommand k n s).shadow = s.shadow ∨ WriteEnded s.shadow (runCommand k n s) := by
  refine (runCommand_induct (P := fun t => t.resetIn = none ∧ Serves k t ∧
    (t.shadow = s.shadow ∨ WriteEnded s.shadow t)) ?_ ⟨hr, hk, .inl rfl⟩ n).2.2
  rintro t ⟨htr, htk, hsame | hended⟩ hrest
  · rw [tick_none htr, ← hsame]
    exact ⟨((transition_timePasses k t).reads htr).1,
      fun k' h => by rw [(transition_commandKept k t).xCmd]; exact htk k' h, transition_shadow htk⟩
  · simp [atRest_idle hended.phase] at hrest

/-- Settles O42: a step that changes a snapshot is the transition that ends a write command, or a run up to it. -/
theorem shadowWrittenOnlyOnOk : Obligations.ShadowWrittenOnlyOnOk := by
  intro s t j hr _ h hj
  have key : t.shadow = s.shadow ∨ WriteEnded s.shadow t := by
    rcases step_next_cases h with
      ⟨h0, -⟩ | ⟨-, -, rfl⟩ | ⟨-, hp, ⟨-, rfl⟩ | ⟨rest, ⟨c, -, rfl⟩ | ⟨bytes, -, rfl⟩ | ⟨-, rfl⟩⟩⟩
    · simp [hr] at h0
    · rw [tick_none hr]; exact transition_shadow fun _ hk => hk
    · exact .inl rfl
    · rw [present_ready (s := { s with inputs := rest }) hp]
      exact runCommand_shadow (s := accept c { s with inputs := rest }) hr (accept_serves c _) _
    · exact .inl rfl
    · exact .inl rfl
  rcases key with hsame | hended
  · rw [hsame] at hj
    exact absurd rfl hj
  · obtain ⟨hid, h253⟩ := hended.others j hj
    exact ⟨hended.phase, hended.resValid, hended.resStatus, hid, h253, hended.kind⟩

/-! ## Steps that take an input -/

/-- An idle or a polling engine meets what arrives as bytes (R36, R157). -/
theorem step_eq_arrive {s : State} {bytes : List Byte} {rest : List Input} (hp : s.phase = .idle ∨ s.phase = .poll)
    (hr : s.resetIn ≠ some 0) (hi : s.inputs = .arrive bytes :: rest) :
    step s = .next (arrive bytes { s with inputs := rest }) := by
  rcases hp with hp | hp
  · rw [step_arrive hp hr hi]
    simp [arrive, deliver, hp]
  · rw [step_busy (by simp [State.busy, hp]) hr, arrive_eq_tick hp hi hr]

theorem exec_of_decode_reply {bytes : List Byte} {i : Instr} (hd : decode bytes = .ok i) (hq : i.isReply = true)
    (s : State) : exec i s = .next (arrive bytes s) := by
  rw [exec_reply hq, encode_of_decode hd hq]

theorem step_readReply {s : State} {rest : List Input} (hp : s.phase = .idle) (hr : s.resetIn ≠ some 0)
    (hi : s.inputs = .readReply :: rest) :
    step s = if replyHeld s then .next { s with inputs := rest } else .fault .noReplyValue := by
  cases h : replyHeld s <;> simp [step, fetch_idle hp hr, fetchIdle, hi, h]

theorem step_readShadow {s : State} {id : Byte} {rest : List Input} (hp : s.phase = .idle) (hr : s.resetIn ≠ some 0)
    (hi : s.inputs = .readShadow id :: rest) :
    step s = if id.toNat ≤ 253 then .next { s with inputs := rest } else .fault .noShadowEntry := by
  have h253 : Config.idMaxUnicast.toNat = 253 := rfl
  by_cases h : id.toNat ≤ 253 <;> simp [step, fetch_idle hp hr, fetchIdle, hi, h253, h]

theorem step_nothing {s : State} (hp : s.phase = .idle) (hr : s.resetIn ≠ some 0) (hi : s.inputs = []) :
    step s = .next (waitIdle s) := by
  simp [step, fetch_idle hp hr, fetchIdle, hi]

theorem step_bypass {s : State} {rest : List Input} (hp : s.phase = .idle) (hr : s.resetIn ≠ some 0)
    (hi : s.inputs = .bypass :: rest) : step s = .refused .hostBypass := by
  simp [step, fetch_idle hp hr, fetchIdle, hi]

/-- Settles O13: an idle engine takes the command on its port, and a command that decodes is an instruction. -/
theorem stepRunsPresentedCommand : Obligations.StepRunsPresentedCommand :=
  fun _ _ _ i hp hr hi hd => (step_present hp hr hi).1 i hd

/-- Settles O14: a reply row that arrives is its bytes, and an idle engine lets bytes stand in the UART. -/
theorem stepRunsArrivedFrame : Obligations.StepRunsArrivedFrame := by
  intro s bytes rest hp hr hi
  refine ⟨fun i hd hq => ?_, fun hidle _ => step_arrive hidle hr hi⟩
  rw [step_eq_arrive hp hr hi, exec_of_decode_reply hd hq]

theorem decode_of_decodeTableWord {nbits w : Nat} {i : Instr} (h : decodeTableWord nbits w = some i) :
    decode (tableBytes nbits w) = .ok i := by
  unfold decodeTableWord at h
  cases hd : decode (tableBytes nbits w) <;> simp [hd, Except.toOption] at h
  rw [h]

/-- Settles O15: the word is placed as an arrival when it is a reply, else as a command on the port of an idle
engine. -/
theorem stepRunsPlacedWord : Obligations.StepRunsPlacedWord := by
  intro s nbits w i h
  have hd := decode_of_decodeTableWord h
  cases hq : i.isReply with
  | true =>
    have hphase : (if s.phase = .poll then Phase.poll else .idle) = .idle ∨
        (if s.phase = .poll then Phase.poll else .idle) = .poll := by split <;> simp
    refine ⟨if s.phase = .poll then .poll else .idle, ?_, fun hp => by simp [hp], ?_⟩
    · split <;> simp [*]
    · rw [State.withFetchWord, placeNext, hd]
      simp only [hq, if_true]
      rw [step_eq_arrive hphase (by simp) rfl, exec_of_decode_reply hd hq]
  | false =>
    refine ⟨.idle, .inr rfl, fun _ => rfl, ?_⟩
    rw [State.withFetchWord, placeNext, hd]
    simp only [hq, Bool.false_eq_true, if_false]
    exact (step_present rfl (by simp) rfl).1 i (decodeCommand_portCmd hq)

/-- Settles O51: the two reads as steps of an idle engine, and `replyHeld`, which no error and no write command
meets. -/
theorem hostReadsAreServed : Obligations.HostReadsAreServed := by
  refine ⟨fun s rest hs hi => ?_, fun s id rest hs hi => ?_, fun e s he => ?_, fun s c hkind hcode => ?_⟩
  · rw [step_readReply hs.idle (by simp [hs.noReset]) hi]
    exact ⟨fun h => by simp [h], fun h => by simp [h]⟩
  · rw [step_readShadow hs.idle (by simp [hs.noReset]) hi]
    have h253 : Config.idMaxUnicast.toNat = 253 := rfl
    exact ⟨fun h => ⟨if_pos h, by simp [readShadowPort, State.busy, hs.idle, h253, h]⟩, fun h => if_neg (by omega)⟩
  · simp [replyHeld, he]
  · simp [replyHeld, hcode, hkind]

/-- Settles O11, by the values of `State.reset`. -/
theorem resetGivesTableValues : Obligations.ResetGivesTableValues :=
  ⟨rfl, rfl, rfl, rfl, rfl, shadowGet_nil, rfl⟩

/-! ## What no rule reads -/

/-- A function of the engine's state that does not read the shadow file, the trace or `DIR`: what it gives does not
depend on them but in them. -/
def IgnoresHidden (f : State → State) : Prop := ∀ s, blind (f (blind s)) = blind (f s)

theorem IgnoresHidden.congr {f : State → State} (hf : IgnoresHidden f) {s u : State} (h : blind s = blind u) :
    blind (f s) = blind (f u) := by
  rw [← hf s, h, hf u]

/-- A choice between two such functions, by something that is not hidden. -/
theorem IgnoresHidden.ite {c : State → Prop} {hdec : DecidablePred c} {f g : State → State}
    (hc : ∀ s, c (blind s) ↔ c s) (hf : IgnoresHidden f) (hg : IgnoresHidden g) :
    IgnoresHidden fun s => if c s then f s else g s := by
  intro s
  dsimp only
  by_cases h : c s
  · rw [if_pos h, if_pos ((hc s).mpr h)]; exact hf s
  · rw [if_neg h, if_neg (mt (hc s).mp h)]; exact hg s

@[simp] theorem blind_xId (s : State) : (blind s).xId = s.xId := rfl
@[simp] theorem blind_xCmd (s : State) : (blind s).xCmd = s.xCmd := rfl
@[simp] theorem blind_xNp (s : State) : (blind s).xNp = s.xNp := rfl
@[simp] theorem blind_xP0 (s : State) : (blind s).xP0 = s.xP0 := rfl
@[simp] theorem blind_xP1 (s : State) : (blind s).xP1 = s.xP1 := rfl
@[simp] theorem blind_rxStore (s : State) : (blind s).rxStore = s.rxStore := rfl
@[simp] theorem blind_inputs (s : State) : (blind s).inputs = s.inputs := rfl
@[simp] theorem replyHeld_blind (s : State) : replyHeld (blind s) = replyHeld s := rfl

/-- The shadow update shows in the shadow file alone. -/
theorem blind_updateShadow (w : WriteSpec) (s : State) : blind (updateShadow w s) = blind s := by
  unfold updateShadow
  split
  · rfl
  · split <;> rfl

theorem ignoresHidden_checkPhase (k : Option CmdSpec) : IgnoresHidden (checkPhase k) := by
  cases k with
  | none => exact fun _ => rfl
  | some k =>
    refine .ite (fun _ => .rfl) (fun _ => rfl) <| .ite (fun _ => .rfl) (fun _ => rfl) <|
      .ite (fun _ => .rfl) (fun _ => rfl) fun s => ?_
    simp only [blind_xNp, blind_xId, blind_xP0, blind_xP1, blind_xCmd]
    cases encodeFrame s.xId s.xCmd s.xNp s.xP0 s.xP1 with
    | error e => rfl
    | ok frame => cases k <;> rfl

theorem ignoresHidden_txPhase (k : Option CmdSpec) : IgnoresHidden (txPhase k) := by
  rcases k with _ | w | r
  · exact fun _ => rfl
  · have hend : IgnoresHidden (endWithoutReply .ok) := fun _ => rfl
    exact .ite (fun _ => .rfl)
      (fun s => hend.congr ((blind_updateShadow w (transmit (blind s))).trans (blind_updateShadow w (transmit s)).symm))
      fun _ => rfl
  · exact .ite (fun _ => .rfl) (fun _ => rfl) fun _ => rfl

theorem ignoresHidden_endAttempt : IgnoresHidden endAttempt :=
  .ite (fun _ => .rfl) (fun _ => rfl) fun _ => rfl

theorem ignoresHidden_pollWith (k : Option CmdSpec) (bytes : List Byte) : IgnoresHidden (pollWith k bytes) := by
  have hrejected : IgnoresHidden fun s =>
      if s.timing.corruptRetry then endAttempt { polled bytes s with outcome := .corrupt }
      else raise .corrupt { polled bytes s with outcome := .corrupt } :=
    .ite (fun _ => .rfl) (fun _ => ignoresHidden_endAttempt.congr rfl) fun _ => rfl
  refine .ite (fun _ => .rfl) ?_ fun _ => ignoresHidden_endAttempt.congr rfl
  simp only [pollPhase_receive]
  refine .ite (fun _ => .rfl) (.ite (fun _ => .rfl) (fun _ => rfl) fun _ => ?_) fun s => ?_
  · exact ignoresHidden_endAttempt.congr rfl
  · simp only [blind_xCmd, blind_rxStore]
    cases acceptedReply k s.xCmd (s.rxStore ++ bytes) with
    | some r => rfl
    | none => exact hrejected s

theorem ignoresHidden_dropArrival : IgnoresHidden dropArrival := by
  intro s
  unfold dropArrival
  simp only [blind_inputs]
  split <;> rfl

theorem ignoresHidden_transition (k : Option CmdSpec) : IgnoresHidden (transition k) := by
  intro s
  cases hp : s.phase with
  | idle => rw [transition_idle hp, transition_idle (s := blind s) hp]; rfl
  | check =>
    rw [transition_check hp, transition_check (s := blind s) hp]
    exact ignoresHidden_checkPhase k s
  | tx =>
    rw [transition_tx hp, transition_tx (s := blind s) hp]
    exact ignoresHidden_txPhase k s
  | settle => rw [transition_settle hp, transition_settle (s := blind s) hp]; rfl
  | poll =>
    rw [transition_poll hp, transition_poll (s := blind s) hp]
    exact (ignoresHidden_pollWith k (arrival s)).congr (ignoresHidden_dropArrival s)

theorem ignoresHidden_tick (k : Option CmdSpec) : IgnoresHidden (tick k) := by
  intro s
  unfold tick underReset
  simp only [show (blind s).resetIn = s.resetIn from rfl]
  split
  · exact ignoresHidden_transition k s
  · rfl
  · exact (ignoresHidden_transition k).congr rfl

theorem ignoresHidden_runCommand (k : Option CmdSpec) (n : Nat) : IgnoresHidden (runCommand k n) := by
  induction n with
  | zero => exact fun _ => rfl
  | succ n ih =>
    intro s
    cases h : atRest s
    · rw [runCommand_succ h, runCommand_succ (s := blind s) h]
      exact ih.congr (ignoresHidden_tick k s)
    · rw [runCommand_rest h, runCommand_rest (s := blind s) h]
      rfl

theorem ignoresHidden_present (k : Option CmdSpec) (c : PortCmd) : IgnoresHidden (present k c) :=
  .ite (fun _ => .rfl) (fun _ => rfl) fun _ => (ignoresHidden_runCommand k _).congr rfl

/-- What a step answers, but for what no rule reads. -/
def blindOutcome : Host.Outcome State Fault Refusal → Host.Outcome State Fault Refusal
  | .next t => .next (blind t)
  | .fault r => .fault r
  | .refused r => .refused r

theorem blindOutcome_step (s : State) : blindOutcome (step (blind s)) = blindOutcome (step s) := by
  by_cases hr : s.resetIn = some 0
  · rw [step_reset hr, step_reset (s := blind s) hr]
    rfl
  cases hb : s.busy with
  | true =>
    rw [step_busy hb hr, step_busy (s := blind s) hb hr]
    exact congrArg Host.Outcome.next (ignoresHidden_tick _ s)
  | false =>
    have hp : s.phase = .idle := by simpa [State.busy] using hb
    cases hi : s.inputs with
    | nil => rw [step_nothing hp hr hi, step_nothing (s := blind s) hp hr hi]; rfl
    | cons x rest =>
      cases x with
      | present c =>
        rw [step_present_eq hp hr hi, step_present_eq (s := blind s) hp hr hi]
        exact congrArg Host.Outcome.next ((ignoresHidden_present _ c).congr rfl)
      | arrive bytes => rw [step_arrive hp hr hi, step_arrive (s := blind s) hp hr hi]; rfl
      | readReply =>
        rw [step_readReply hp hr hi, step_readReply (s := blind s) hp hr hi, replyHeld_blind]
        split <;> rfl
      | readShadow id =>
        rw [step_readShadow hp hr hi, step_readShadow (s := blind s) hp hr hi]
        split <;> rfl
      | bypass => rw [step_bypass hp hr hi, step_bypass (s := blind s) hp hr hi]

/-- Settles O43: no step reads them, so two states that differ in them alone step alike. -/
theorem shadowTraceDirNeverRead : Obligations.ShadowTraceDirNeverRead := by
  intro s u h
  have key : blindOutcome (step s) = blindOutcome (step u) := by
    rw [← blindOutcome_step s, h, blindOutcome_step u]
  refine ⟨fun t ht => ?_, fun r hr => ?_, fun r hr => ?_⟩
  · rw [ht] at key
    cases hu : step u <;> simp [hu, blindOutcome] at key
    exact ⟨_, rfl, key⟩
  · rw [hr] at key
    cases hu : step u <;> simp [hu, blindOutcome] at key
    rw [key]
  · rw [hr] at key
    cases hu : step u <;> simp [hu, blindOutcome] at key
    rw [key]

end Sys2Proof.Machine
end

section
/-! SUPPORT. Proofs of the statements of `20_memory.md`: what every transition puts on the transmit stream, against the
`write` events that it leaves in the trace. -/

namespace Sys2Proof.Machine

/-! ## The `write` events of a trace -/

theorem writesOf_append (l m : List Event) : writesOf (l ++ m) = writesOf l ++ writesOf m := by
  induction l with
  | nil => rfl
  | cons e rest ih => cases e <;> simp [writesOf, ih]

theorem hasFailedWrite_append (l m : List Event) :
    hasFailedWrite (l ++ m) = (hasFailedWrite l || hasFailedWrite m) :=
  List.any_append

/-! ## The stream between two states -/

/-- The transmit stream and the trace only grow, and what a stretch without a failed `write` adds to the stream is the
frames of the `write` events that it adds to the trace (R67, R70). -/
def StreamFollows (s t : State) : Prop :=
  ∃ sent more, t.wire = s.wire ++ sent ∧ t.trace = s.trace ++ more ∧
    (hasFailedWrite more = false → sent = (writesOf more).flatten)

namespace StreamFollows

/-- Calls that put nothing on the line, or none at all. -/
theorem of_silent {s t : State} {more : List Event} (hw : t.wire = s.wire) (ht : t.trace = s.trace ++ more)
    (hm : writesOf more = []) : StreamFollows s t :=
  ⟨[], more, by simp [hw], ht, by simp [hm]⟩

/-- Nothing that the stream or the trace shows. -/
theorem of_same {s t : State} (hw : t.wire = s.wire) (ht : t.trace = s.trace) : StreamFollows s t :=
  of_silent (more := []) hw (by simp [ht]) rfl

theorem refl (s : State) : StreamFollows s s := of_same rfl rfl

theorem trans {s t u : State} (hst : StreamFollows s t) (htu : StreamFollows t u) : StreamFollows s u := by
  obtain ⟨sent₁, more₁, hw₁, ht₁, hf₁⟩ := hst
  obtain ⟨sent₂, more₂, hw₂, ht₂, hf₂⟩ := htu
  refine ⟨sent₁ ++ sent₂, more₁ ++ more₂, by rw [hw₂, hw₁, List.append_assoc], by rw [ht₂, ht₁, List.append_assoc],
    fun hno => ?_⟩
  obtain ⟨hno₁, hno₂⟩ := Bool.or_eq_false_iff.mp (hasFailedWrite_append more₁ more₂ ▸ hno)
  rw [hf₁ hno₁, hf₂ hno₂, writesOf_append, List.flatten_append]

end StreamFollows

/-! ## The stream in the operations and the transitions -/

/-- The one operation that reaches the line: its `write` event carries the frame, and if it succeeds the whole frame is
on the stream (R10, R67). -/
theorem transmit_streamFollows (s : State) : StreamFollows s (transmit s) := by
  refine ⟨if (writeAnswer s).ok then s.txbuf else s.txbuf.take (writeAnswer s).sent, _, rfl, transmit_trace s,
    fun hno => ?_⟩
  have hok : (writeAnswer s).ok = true := by simpa [hasFailedWrite] using hno
  simp [hok, writesOf]

theorem endAttempt_streamFollows (s : State) : StreamFollows s (endAttempt s) :=
  .of_silent (endAttempt_wire s) (endAttempt_trace s) rfl

theorem checkPhase_streamFollows (k : Option CmdSpec) (s : State) : StreamFollows s (checkPhase k s) := by
  rcases checkPhase_outcomes k s with ⟨e, h⟩ | ⟨frame, h⟩ | ⟨frame, h⟩ <;> rw [h]
  · exact .of_same rfl rfl
  · exact .of_same rfl rfl
  · exact .of_silent rfl rfl rfl

theorem txPhase_streamFollows (k : Option CmdSpec) (s : State) : StreamFollows s (txPhase k s) := by
  rcases k with _ | w | r
  · exact .of_same rfl rfl
  · rcases txPhase_write w s with ⟨-, h⟩ | ⟨-, h⟩ <;> rw [h]
    · exact (transmit_streamFollows s).trans (.of_same (updateShadow_wire _ w) (updateShadow_trace _ w))
    · exact transmit_streamFollows s
  · rcases txPhase_read r s with ⟨-, h⟩ | ⟨-, h⟩ <;> rw [h] <;> exact transmit_streamFollows (startAttempt s)

theorem pollWith_streamFollows (k : Option CmdSpec) (bytes : List Byte) (s : State) :
    StreamFollows s (pollWith k bytes s) := by
  have hp : StreamFollows s (polled bytes s) := .of_silent rfl (polled_trace bytes s) rfl
  have hwait : StreamFollows s (waitFor s.timing.tPoll (polled bytes s)) := hp.trans (.of_silent rfl rfl rfl)
  rcases pollWith_cases k bytes s with
    ⟨-, h⟩ | ⟨-, -, h⟩ | ⟨-, -, h⟩ | ⟨-, r, -, h⟩ | ⟨-, -, -, -, h⟩ | ⟨-, -, -, -, h⟩ <;> rw [h]
  · exact endAttempt_streamFollows (receive bytes s)
  · exact hwait
  · exact hwait.trans (endAttempt_streamFollows _)
  · exact hp
  · exact hp.trans (endAttempt_streamFollows { polled bytes s with outcome := .corrupt })
  · exact hp

theorem transition_streamFollows (k : Option CmdSpec) (s : State) : StreamFollows s (transition k s) := by
  cases hp : s.phase with
  | idle => rw [transition_idle hp]; exact .refl s
  | check => rw [transition_check hp]; exact checkPhase_streamFollows k s
  | tx => rw [transition_tx hp]; exact txPhase_streamFollows k s
  | settle =>
    rw [transition_settle hp]
    exact .of_silent (settlePhase_wire s) ((settlePhase_trace s).trans (List.append_assoc ..)) rfl
  | poll =>
    rw [transition_poll hp]
    have hdrop : StreamFollows s (dropArrival s) := .of_same (dropArrival_wire s) (dropArrival_trace s)
    exact hdrop.trans (pollWith_streamFollows k _ _)

/-- A run under which no reset comes: no transition of it starts a countdown. -/
theorem runCommand_streamFollows {k : Option CmdSpec} {s : State} (hr : s.resetIn = none) (n : Nat) :
    StreamFollows s (runCommand k n s) := by
  refine (runCommand_induct (P := fun t => t.resetIn = none ∧ StreamFollows s t) ?_ ⟨hr, .refl s⟩ n).2
  rintro t ⟨htr, ht⟩ -
  rw [tick_none htr]
  exact ⟨((transition_timePasses k t).reads htr).1, ht.trans (transition_streamFollows k t)⟩

theorem present_streamFollows (k : Option CmdSpec) (c : PortCmd) {s : State} (hr : s.resetIn = none) :
    StreamFollows s (present k c s) := by
  unfold present
  split
  · exact .refl s
  · exact runCommand_streamFollows (s := accept c s) hr _

/-- Settles O45, by what a step can be: a transition, a run of a command, or nothing that reaches the line. -/
theorem streamIsWritesInOrder : Obligations.StreamIsWritesInOrder := by
  intro s t hr h
  show StreamFollows s t
  rcases step_next_cases h with
    ⟨h0, -⟩ | ⟨-, -, rfl⟩ | ⟨-, -, ⟨-, rfl⟩ | ⟨rest, ⟨c, -, rfl⟩ | ⟨bytes, -, rfl⟩ | ⟨-, rfl⟩⟩⟩
  · simp [hr] at h0
  · rw [tick_none hr]
    exact transition_streamFollows _ s
  · exact .of_same rfl rfl
  · exact present_streamFollows _ c (s := { s with inputs := rest }) hr
  · exact .of_same rfl rfl
  · exact .of_same rfl rfl

end Sys2Proof.Machine
end

section
/-! SUPPORT. Proofs of the statements of `30_encoding.md`: the codes that no command has, the commands on the port, the
words written out, and the calls of a host whose commands are all transmitted. -/

namespace Sys2Proof

/-- The codes of no command (R103): the reserved ones, 0, and those past the last. -/
theorem Cmd.ofCode_eq_none_iff (code : Byte) : Cmd.ofCode code = none ↔
    code.toNat ∈ [3, 4, 5, 6, 9, 10, 13, 14, 15, 16] ∨ code.toNat = 0 ∨ 37 ≤ code.toNat := by
  constructor
  · intro h
    unfold Cmd.ofCode at h
    -- the last alternative is left: `code` is none of the catalog's codes
    split at h <;> cases h
    simp only [imp_false, List.mem_cons, List.not_mem_nil, or_false] at *
    omega
  · intro h
    cases hc : Cmd.ofCode code with
    | none => rfl
    | some c =>
      rw [← Cmd.code_of_ofCode hc] at h
      revert h
      cases c <;> decide

namespace Machine

/-! ## Codes without a command -/

/-- `ENCODE` has no frame for a code of no command (R103, R132). -/
theorem encodeFrame_of_ofCode_none {code : Byte} (h : Cmd.ofCode code = none) (id : Byte) (np : BitVec 2) (p0 p1 : Word) :
    encodeFrame id code np p0 p1 = .error .invalidParameterCount := by
  rcases encodeFrame_cases id code np p0 p1 with ⟨e, -⟩ | ⟨c, -, hc, -⟩
  · exact e
  · simp [h] at hc

/-- A frame carries its code in its fifth byte (R90). -/
theorem byteAt_frameOf_code (id code : Byte) (args : Args) : byteAt (frameOf id code args) 4 = code := rfl

/-- `DECODE` accepts no buffer that carries a code of no command (R103, R135). -/
theorem decodeFrame_of_ofCode_none {buf : List Byte} (h : Cmd.ofCode (byteAt buf 4) = none) (hlen : 6 ≤ buf.length)
    (expected : Byte) : decodeFrame buf expected = .corrupt := by
  rcases decodeFrame_cases buf expected with ⟨hlt, -⟩ | ⟨-, r, hok⟩ | ⟨-, e⟩
  · omega
  · obtain ⟨-, hsome, hbuf⟩ := decodeFrame_ok hok
    rw [hbuf, byteAt_frameOf_code] at h
    simp [h] at hsome
  · exact e

/-- A command on the port that is no request row is refused before any call (R103, R165 step 1). -/
theorem step_present_refuses {c : PortCmd} {s : State} (hs : Ready s) (hd : decodeCommand c = none) :
    ∃ t, step { s with inputs := .present c :: s.inputs } = .next t ∧ Refused s t c .invalidParameterCount := by
  refine ⟨_, (step_present (s := { s with inputs := .present c :: s.inputs }) hs.idle (by simp [hs.noReset]) rfl).2 hd, ?_⟩
  rw [present_none (s := s) hs.idle hs.noReset]
  exact raise_accept_refused c _ s

/-- Settles O6: a code of no command is no code of the catalog, and no frame and no request row carries it. -/
theorem reservedCodesRefused : Obligations.ReservedCodesRefused := by
  refine ⟨Cmd.ofCode_eq_none_iff, fun code h => ⟨encodeFrame_of_ofCode_none h, ?_, fun s id args hs => ?_⟩⟩
  · rintro buf expected hlen rfl
    exact decodeFrame_of_ofCode_none h hlen expected
  · exact step_present_refuses hs (by simp [decodeCommand, h])

/-! ## Commands on the port, and words -/

/-- Settles O9, by the two kinds of commands on the port: those that are a request row, and those with an invalid code or
a wrong count. -/
theorem commandPortNamesRequests : Obligations.CommandPortNamesRequests := by
  refine ⟨fun i => decodeCommand_portCmd, fun c i h => ?_, fun c => ?_⟩
  · rcases decodeCommand_cases c with ⟨j, -, hd, -, hq, -, hport, -⟩ | ⟨hd, -⟩
    · rw [hd] at h
      cases h
      exact ⟨hport, hq⟩
    · simp [hd] at h
  · rcases decodeCommand_cases c with ⟨j, k, hd, hk, -, -, -, hnp⟩ | ⟨hd, hnp⟩
    · simp [hd, hk, hnp]
    · exact iff_of_true hd hnp

/-- Settles O8: the decoder, evaluated on the five words. -/
theorem writtenWordsDecode : Obligations.WrittenWordsDecode :=
  ⟨rfl, rfl, rfl, rfl, rfl⟩

/-! ## Calls of write commands -/

/-- A write command that passes every check of phase `CHECK`, whatever the latches it leaves uncovered hold (R165, R181). -/
structure Sendable (c : Cmd) (w : WriteSpec) (p : PortCmd) : Prop where
  spec  : specOf c = .write w
  code  : p.code = c.code
  count : p.args.np = c.requestNp
  id    : p.id ≠ 255
  range : ∀ s : State, w.rangeOk (accept p s).xP0 (accept p s).xP1 = true

/-- A staged move in its ranges is sent (R183). -/
theorem sendable_stageCmd {id : Byte} {position durationMs : Word} (hid : id ≠ 255) (hp : position.toNat ≤ 1000)
    (hd : durationMs.toNat ≤ 30000) : Sendable .moveStageWrite moveStageWriteSpec (stageCmd id position durationMs) :=
  ⟨rfl, rfl, rfl, hid, fun _ => (moveInRange_iff position durationMs).mpr ⟨hp, hd⟩⟩

/-- A trigger is sent (R184). -/
theorem sendable_triggerCmd {id : Byte} (hid : id ≠ 255) : Sendable .trigger triggerSpec (triggerCmd id) :=
  ⟨rfl, rfl, rfl, hid, fun _ => rfl⟩

/-- The shadow update changes the shadow file alone (R31). -/
theorem updateShadow_eq (w : WriteSpec) (s : State) : updateShadow w s = { s with shadow := (updateShadow w s).shadow } := by
  unfold updateShadow
  split <;> [rfl; (split <;> rfl)]

/-- The end of a write command, whatever it makes of the shadow file: the frame has been handed to the UART (R150, R195). -/
theorem transmitted_endWithoutReply (p : PortCmd) (s : State) (shadow : List (Nat × ServoState)) (r : Status) :
    Transmitted s (endWithoutReply r { transmit (framed p s) with shadow := shadow }) p (frameOf p.id p.code p.args)
      (writeAnswer s).ok r where
  latched := ⟨rfl, rfl, rfl, (accept_latched p s).first, (accept_latched p s).second⟩
  phase := rfl
  resValid := rfl
  resStatus := rfl
  txbuf := rfl
  dir := rfl
  trace := transmit_trace (framed p s)
  wire := rfl
  clock := rfl
  writes := rfl
  kept := ⟨rfl, rfl, rfl, rfl, rfl, rfl, rfl, rfl, rfl, rfl, rfl, rfl⟩

/-- What a write command that passes its checks does: its frame is handed to the UART, and the result is the answer's
(R150, R151, R181). -/
theorem present_transmitted {c : Cmd} {w : WriteSpec} {p : PortCmd} {s : State} (h : Sendable c w p) (hs : Ready s) :
    Transmitted s (present (some (specOf c)) p s) p (frameOf p.id p.code p.args) (writeAnswer s).ok
      (if (writeAnswer s).ok then .ok else .ioFailure) := by
  rcases present_write h.spec h.code h.count hs with ⟨hbad, -⟩ | ⟨-, -, ha, e⟩ | ⟨-, -, ha, e⟩
  · rw [h.range s] at hbad
    exact absurd (hbad.resolve_right (by simp)) h.id
  · rw [e, updateShadow_eq, if_pos ha]
    exact transmitted_endWithoutReply p s _ .ok
  · rw [e, if_neg (by simp [ha])]
    exact transmitted_endWithoutReply p s _ .ioFailure

/-- A host that calls is not blocked any longer when the engine is idle (R25). -/
theorem blockWhileBusy_idle {t : State} (h : t.phase = .idle) (n : Nat) : blockWhileBusy n t = .next t := by
  cases n <;> simp [blockWhileBusy, State.busy, h]

/-- A call on an idle engine presents its command, and blocks while it runs. -/
theorem callCommand_ready {p : PortCmd} {s : State} (hs : Ready s) :
    callCommand p s = blockWhileBusy (enoughTransitions s.timing)
      (present ((decodeCommand p).map (specOf ·.fields.cmd)) p s) := by
  rw [callCommand, step_present_eq (s := { s with inputs := .present p :: s.inputs }) hs.idle (by simp [hs.noReset]) rfl]
  exact congrArg (blockWhileBusy · _) (congrArg enoughTransitions (present_timing _ p s))

/-- A command on the port with the code and the count of a catalog command runs with that command's own part. -/
theorem decodeCommand_spec {c : Cmd} {p : PortCmd} (hcode : p.code = c.code) (hnp : p.args.np = c.requestNp) :
    (decodeCommand p).map (specOf ·.fields.cmd) = some (specOf c) := by
  have hc : Cmd.ofCode p.code = some c := by rw [hcode, Cmd.ofCode_code]
  rcases decodeCommand_cases p with ⟨i, k, hd, hk, -, hcmd, -, -⟩ | ⟨-, hne⟩
  · rw [hc] at hk
    cases hk
    rw [hd, Option.map_some, hcmd]
  · exact absurd hnp (hne c hc)

/-- A call of a write command that passes its checks ends when its frame has been handed to the UART. -/
theorem callCommand_transmitted {c : Cmd} {w : WriteSpec} {p : PortCmd} {s : State} (h : Sendable c w p) (hs : Ready s) :
    ∃ t, callCommand p s = .next t ∧ Transmitted s t p (frameOf p.id p.code p.args) (writeAnswer s).ok
      (if (writeAnswer s).ok then .ok else .ioFailure) := by
  have ht := present_transmitted h hs
  exact ⟨_, by rw [callCommand_ready hs, decodeCommand_spec h.code h.count, blockWhileBusy_idle ht.phase], ht⟩

/-! ## Runs of write commands -/

theorem runMacro_cons_ok {p : PortCmd} {rest : List PortCmd} {s t : State} (h : callCommand p s = .next t)
    (hv : t.resValid = true) (hr : t.resStatus = .ok) : runMacro (p :: rest) s = runMacro rest t := by
  simp [runMacro, h, hv, hr]

/-- The calls of a write command that ends `Ok` (R150). -/
def sendEvents (p : PortCmd) : List Event := [.setWriteMode, .write (frameOf p.id p.code p.args) true]

/-- Write commands that pass their checks, called one after the other, each of whose writes succeeds, make the calls of
each in their order and no others. -/
theorem runMacro_sends {cmds : List PortCmd} {answers later : List WriteAnswer} {s : State}
    (hsend : ∀ p ∈ cmds, ∃ c w, Sendable c w p) (hlen : answers.length = cmds.length)
    (hok : ∀ a ∈ answers, a.ok = true) (hs : Ready s) (hw : s.writes = answers ++ later)
    (hnil : cmds = [] → s.resStatus = .ok) :
    ∃ t, runMacro cmds s = .next t ∧ Ready t ∧ t.resStatus = .ok ∧ t.trace = s.trace ++ cmds.flatMap sendEvents := by
  induction cmds generalizing s answers with
  | nil => exact ⟨s, rfl, hs, hnil rfl, by simp⟩
  | cons p rest ih =>
    cases answers with
    | nil => simp at hlen
    | cons a answers =>
      rw [List.forall_mem_cons] at hsend hok
      obtain ⟨⟨c, w, hp⟩, hrest⟩ := hsend
      have ha : (writeAnswer s).ok = true := by simp [writeAnswer, hw, hok.1]
      obtain ⟨t, hcall, ht⟩ := callCommand_transmitted hp hs
      rw [ha, if_pos rfl] at ht
      obtain ⟨u, hrun, hu, hstatus, htrace⟩ := ih (s := t) hrest (by simpa using hlen) hok.2
        ⟨ht.phase, ht.kept.resetIn.trans hs.noReset⟩ (by rw [ht.writes, hw]; rfl) (fun _ => ht.resStatus)
      exact ⟨u, (runMacro_cons_ok hcall ht.resValid ht.resStatus).trans hrun, hu, hstatus,
        by rw [htrace, ht.trace]; simp [sendEvents]⟩

/-- The ID of a joint is a command's (R61, R64). -/
theorem jointId_ne_255 {leg joint : Nat} (hleg : leg ≤ 5) (hjoint : joint ≤ 3) : jointId leg joint ≠ 255 := by
  intro h
  replace h : (leg * 3 + joint) % 256 = 255 := by simpa [jointId] using congrArg BitVec.toNat h
  rw [Nat.mod_eq_of_lt (by omega)] at h
  omega

/-- Settles O52: each of the six commands passes its checks, so the run makes the calls of the six. -/
theorem stageThenTriggerTraffic : Obligations.StageThenTriggerTraffic := by
  intro st leg s k a dur a1 a2 a3 a4 a5 a6 later hleg hst hs hk ha hdur hw hok
  have hid : ∀ joint ≤ 3, jointId leg joint ≠ 255 := fun joint => jointId_ne_255 hleg
  have hsend : ∀ p ∈ stagePosition leg s k a dur ++ triggerAll leg, ∃ c w, Sendable c w p := by
    simp only [stagePosition, stagePositionEach, triggerAll, legIds, List.map, List.cons_append, List.nil_append,
      List.forall_mem_cons]
    exact ⟨⟨_, _, sendable_stageCmd (hid 1 (by decide)) hs hdur⟩, ⟨_, _, sendable_stageCmd (hid 2 (by decide)) hk hdur⟩,
      ⟨_, _, sendable_stageCmd (hid 3 (by decide)) ha hdur⟩, ⟨_, _, sendable_triggerCmd (hid 1 (by decide))⟩,
      ⟨_, _, sendable_triggerCmd (hid 2 (by decide))⟩, ⟨_, _, sendable_triggerCmd (hid 3 (by decide))⟩, by simp⟩
  obtain ⟨t, hrun, ht, hstatus, htrace⟩ :=
    runMacro_sends (answers := [a1, a2, a3, a4, a5, a6]) hsend rfl hok hst hw nofun
  exact ⟨t, hrun, ht.idle, hstatus, htrace⟩

end Machine
end Sys2Proof
end

section
/-! SUPPORT. Proofs of the statements of `40_codec.md`: the checksum as a number, the fields of a frame by their place,
the exact conditions of the three verdicts of `DECODE`, and the detection of one changed byte. -/

namespace Sys2Proof

/-! ## The checksum -/

/-- R131's second form of the checksum: complement the sum modulo 256. -/
theorem checksum_toNat (b : List Byte) : (checksum b).toNat = 255 - byteSum b % 256 := by
  simp [checksum, BitVec.toNat_not]

/-- The byte sum does not see the order of the bytes. -/
theorem byteSum_perm {a b : List Byte} (h : a.Perm b) : byteSum a = byteSum b :=
  (h.map BitVec.toNat).sum_eq

namespace Machine

/-- Settles O1: the checksum is a function of the byte sum modulo 256, which a change of one byte changes. -/
theorem checksumComplementsSum : Obligations.ChecksumComplementsSum :=
  ⟨checksum_toNat, rfl, fun a b h => (checksum_eq_iff a b).mpr (by rw [byteSum_perm h]),
    fun _ _ _ => checksum_set_ne⟩

/-! ## `ENCODE` -/

/-- `ENCODE` refuses every count but the command's own (R132). -/
theorem encodeFrame_of_np_ne {code : Byte} {c : Cmd} {np : BitVec 2} (hc : Cmd.ofCode code = some c)
    (hnp : np ≠ c.requestNp) (id : Byte) (p0 p1 : Word) :
    encodeFrame id code np p0 p1 = .error .invalidParameterCount := by
  rcases encodeFrame_cases id code np p0 p1 with ⟨e, -⟩ | ⟨d, -, hd, -, hown, -⟩
  · exact e
  · rw [hc, Option.some.injEq] at hd
    exact absurd (hd ▸ hown) hnp

/-- Settles O2, by the code and, for a catalog code, by the command's own count. -/
theorem encodeBuildsFrame : Obligations.EncodeBuildsFrame := by
  refine fun id code p0 p1 => ⟨fun h np => encodeFrame_of_ofCode_none h id np p0 p1, fun c hc => ?_⟩
  obtain rfl := Cmd.code_of_ofCode hc
  exact ⟨fun np hnp => encodeFrame_of_np_ne hc hnp id p0 p1,
    fun h => encodeFrame_args (args := .zero) id h.symm nofun nofun,
    fun h => encodeFrame_args (args := .one p0) id h.symm (fun _ => Option.some.inj) nofun,
    fun h => encodeFrame_args (args := .two p0 p1) id h.symm (fun _ => Option.some.inj) (fun _ => Option.some.inj),
    c.requestNp_cases⟩

/-! ## The fields of a frame -/

/-- The number in the `LEN` byte (R92). -/
theorem byteAt_frameOf_len (id code : Byte) (args : Args) :
    (byteAt (frameOf id code args) 3).toNat = 3 + 2 * args.np.toNat := by
  cases args <;> rfl

/-- The summed region of a frame is what stands between its header and its checksum (R95). -/
theorem summedRegion_frameOf (id code : Byte) (args : Args) :
    summedRegion (frameOf id code args) = frameBody id code args := by
  cases args <;> rfl

/-- The last byte of a frame is the checksum of its summed region (R95). -/
theorem byteAt_frameOf_last (id code : Byte) (args : Args) :
    byteAt (frameOf id code args) ((frameOf id code args).length - 1) =
      checksum (summedRegion (frameOf id code args)) := by
  rw [summedRegion_frameOf]
  cases args <;> rfl

/-- Settles O3: what `ENCODE` returns is the frame of a catalog code, whose fields stand at their places. -/
theorem encodedFrameShape : Obligations.EncodedFrameShape := by
  intro id code np p0 p1 f h
  rcases encodeFrame_cases id code np p0 p1 with ⟨e, -⟩ | ⟨c, args, hc, -, -, -, -, e⟩
  · rw [e] at h
    cases h
  · rw [e, Except.ok.injEq] at h
    subst h
    have hsome : (Cmd.ofCode code).isSome = true := by rw [hc]; rfl
    have hnp : args.np.toNat = 0 ∨ args.np.toNat = 1 ∨ args.np.toNat = 2 := by
      rcases args.np_cases with h | h | h <;> simp [h]
    refine ⟨rfl, rfl, ?_, ?_, hsome, byteAt_frameOf_last id code args, _, decodeFrame_frameOf id args hsome⟩
    · rw [byteAt_frameOf_len, frameOf_length]
      omega
    · rw [byteAt_frameOf_len]
      omega

/-! ## The verdicts of `DECODE` -/

/-- `DECODE` answers `Empty` exactly below six bytes (R135). -/
theorem decodeFrame_eq_empty_iff (buf : List Byte) (expected : Byte) :
    decodeFrame buf expected = .empty ↔ buf.length < 6 := by
  rcases decodeFrame_cases buf expected with ⟨hlt, e⟩ | ⟨hle, r, e⟩ | ⟨hle, e⟩
  · simp [e, hlt]
  · simp [e, hle]
  · simp [e, hle]

/-- `DECODE` accepts exactly the frames of the expected code, if it is a catalog code (R135). -/
theorem decodeFrame_eq_ok_iff (buf : List Byte) (expected : Byte) (r : Reply) :
    decodeFrame buf expected = .ok r ↔
      r.code = expected ∧ (Cmd.ofCode expected).isSome = true ∧ buf = frameOf r.id expected r.args := by
  refine ⟨decodeFrame_ok, ?_⟩
  obtain ⟨id, code, args⟩ := r
  rintro ⟨rfl, hsome, rfl⟩
  exact decodeFrame_frameOf id args hsome

/-- `DECODE` answers `Corrupt` exactly when the length admits a frame and the buffer is none it accepts (R135). -/
theorem decodeFrame_eq_corrupt_iff (buf : List Byte) (expected : Byte) :
    decodeFrame buf expected = .corrupt ↔ 6 ≤ buf.length ∧ ∀ r, decodeFrame buf expected ≠ .ok r := by
  rcases decodeFrame_cases buf expected with ⟨hlt, e⟩ | ⟨-, r, e⟩ | ⟨hle, e⟩
  · simp [e, hlt]
  · simp [e]
  · simp [e, hle]

/-- Settles O4, by the exact condition of each verdict. -/
theorem decodeAcceptsExactlyFrames : Obligations.DecodeAcceptsExactlyFrames := by
  refine fun buf expected => ⟨decodeFrame_eq_empty_iff buf expected, decodeFrame_eq_ok_iff buf expected, ?_⟩
  rw [decodeFrame_eq_corrupt_iff]
  refine and_congr_right fun _ => ⟨fun h id args hsome hbuf => ?_, fun h r hok => ?_⟩
  · exact h ⟨id, expected, args⟩ ((decodeFrame_eq_ok_iff ..).mpr ⟨rfl, hsome, hbuf⟩)
  · obtain ⟨-, hsome, hbuf⟩ := decodeFrame_ok hok
    exact h r.id r.args hsome hbuf

/-! ## One changed byte -/

/-- An accepted buffer ends in the checksum of its summed region. -/
theorem byteAt_last_of_decodeFrame_ok {buf : List Byte} {expected : Byte} {r : Reply}
    (h : decodeFrame buf expected = .ok r) : byteAt buf (buf.length - 1) = checksum (summedRegion buf) := by
  obtain ⟨-, -, hbuf⟩ := decodeFrame_ok h
  rw [hbuf]
  exact byteAt_frameOf_last ..

/-- A byte changed behind the header is that byte of the summed region changed. -/
theorem summedRegion_set {b : List Byte} {i : Nat} (h : 2 ≤ i) (x : Byte) :
    summedRegion (b.set i x) = (summedRegion b).set (i - 2) x := by
  rw [summedRegion, List.length_set, List.take_set, List.drop_set, if_neg (by omega), summedRegion]

theorem summedRegion_length (b : List Byte) : (summedRegion b).length = b.length - 3 := by
  rw [summedRegion, List.length_drop, List.length_take]
  omega

/-- The summed region's bytes are those of the buffer behind the header. -/
theorem byteAt_summedRegion {b : List Byte} {i : Nat} (h2 : 2 ≤ i) (h : i < b.length - 1) :
    byteAt (summedRegion b) (i - 2) = byteAt b i := by
  simp only [byteAt, summedRegion, List.getD_eq_getElem?_getD, List.getElem?_drop, Nat.add_sub_cancel' h2,
    List.getElem?_take_of_lt h]

/-- A buffer accepted before one byte of its summed region was changed is not accepted after: its last byte is the
checksum of the region as it was (R137). -/
theorem decodeFrame_set_ne_ok {f : List Byte} {expected : Byte} {r : Reply} {i : Nat} {x : Byte}
    (h : decodeFrame f expected = .ok r) (h2 : 2 ≤ i) (hi : i < f.length - 1) (hx : x ≠ byteAt f i) (r' : Reply) :
    decodeFrame (f.set i x) expected ≠ .ok r' := by
  intro h'
  have hlast : byteAt (f.set i x) (f.length - 1) = byteAt f (f.length - 1) := by
    simp [byteAt, List.getD_eq_getElem?_getD, List.getElem?_set_ne (show i ≠ f.length - 1 by omega)]
  have hsum : checksum ((summedRegion f).set (i - 2) x) = checksum (summedRegion f) := by
    rw [← summedRegion_set h2, ← byteAt_last_of_decodeFrame_ok h', List.length_set, hlast,
      byteAt_last_of_decodeFrame_ok h]
  refine checksum_set_ne ?_ ?_ hsum
  · rw [summedRegion_length]
    omega
  · exact fun e => hx (e.trans (byteAt_summedRegion h2 hi))

/-! ## The codec's laws -/

/-- `DECODE` of what `ENCODE` builds for a command gives back the ID, the code and the parameters (R137). -/
theorem decodeFrame_of_encodeFrame (c : Cmd) (id : Byte) (p0 p1 : Word) : ∃ f args,
    encodeFrame id c.code c.requestNp p0 p1 = .ok f ∧ decodeFrame f c.code = .ok ⟨id, c.code, args⟩ ∧
      args.np = c.requestNp ∧ (∀ p, args.first = some p → p = p0) ∧ (∀ p, args.second = some p → p = p1) := by
  rcases encodeFrame_cases id c.code c.requestNp p0 p1 with ⟨-, hne⟩ | ⟨-, args, -, hnp, -, h0, h1, e⟩
  · exact absurd rfl (hne c (Cmd.ofCode_code c))
  · exact ⟨_, args, e, decodeFrame_frameOf id args (by simp), hnp, h0, h1⟩

/-- Settles O5: the round trip, the changed byte that the checksum shows, and the verdicts by the length. -/
theorem codecLaws : Obligations.CodecLaws := by
  refine ⟨decodeFrame_of_encodeFrame, fun f expected r i x hok h2 hi hx => ?_,
    fun buf expected => ⟨fun hle => ?_, fun hlt => ?_⟩⟩
  · obtain ⟨-, -, hf⟩ := decodeFrame_ok hok
    have hlen : 6 ≤ f.length := by rw [hf, frameOf_length]; omega
    exact (decodeFrame_eq_corrupt_iff ..).mpr
      ⟨by rwa [List.length_set], decodeFrame_set_ne_ok hok h2 (by omega) hx⟩
  · rw [Ne, decodeFrame_eq_empty_iff]
    omega
  · simp [(decodeFrame_eq_empty_iff buf expected).mpr hlt]

end Machine
end Sys2Proof
end

section
/-! SUPPORT. Proofs of the statements of `41_transport.md`: one poll and what it leaves alone, the transmission of an
attempt, the table of transitions with the line direction each row leaves, the number of transitions a command has left,
and a query on a silent channel. -/

namespace Sys2Proof.Machine

/-! ## One poll -/

/-- A step that meets an arrival in phase `POLL` is the poll of those bytes (R157). -/
theorem step_poll {s : State} {bytes : List Byte} {rest : List Input} (hp : s.phase = .poll) (hr : s.resetIn = none)
    (hi : s.inputs = .arrive bytes :: rest) :
    step s = .next (pollWith (specAt s.xCmd) bytes { s with inputs := rest }) := by
  rw [step_busy_none (by simp [State.busy, hp]) hr, transition_poll hp, pollNext_of_arrive hi]

/-- A wait returns no earlier than asked (R10). -/
theorem add_le_waitFor_clock (n : Nat) (s : State) : s.clock + n ≤ (waitFor n s).clock := Nat.le_add_right _ _

/-- A poll that has found nothing, and the wait after it (R160). -/
def emptyPolled (s : State) : State := waitFor s.timing.tPoll (polled [] s)

@[simp] theorem emptyPolled_attempts (s : State) : (emptyPolled s).attempts = s.attempts := rfl
@[simp] theorem emptyPolled_trace (s : State) :
    (emptyPolled s).trace = s.trace ++ [.readAvailable (s.rxStore ++ [])] ++ [.wait s.timing.tPoll] := rfl

theorem emptyPolled_clock (s : State) : (emptyPolled s).clock = s.clock + s.timing.tPoll + waitExcess s := rfl

theorem clock_le_emptyPolled (s : State) : s.clock ≤ (emptyPolled s).clock := by
  rw [emptyPolled_clock]
  omega

/-- A poll within the attempt that finds no byte waits, and ends the attempt when it was the last (R160). -/
theorem pollWith_nothing (k : Option CmdSpec) {s : State} (hs : s.rxStore = []) (hn : s.pollCnt < s.timing.nPoll) :
    (s.pollCnt + 1 < s.timing.nPoll ∧ pollWith k [] s = emptyPolled s) ∨
    (s.pollCnt + 1 = s.timing.nPoll ∧ pollWith k [] s = endAttempt (emptyPolled s)) := by
  rcases pollWith_cases k [] s with
    ⟨h, -⟩ | ⟨h, -, e⟩ | ⟨h, -, e⟩ | ⟨-, r, h, -⟩ | ⟨-, h, -⟩ | ⟨-, h, -⟩
  · omega
  · exact .inl ⟨h, e⟩
  · exact .inr ⟨h, e⟩
  · obtain ⟨-, -, -, hb⟩ := acceptedReply_iff.mp h
    simp only [hs, List.append_nil] at hb
    exact (frameOf_ne_nil _ _ _ hb.symm).elim
  · simp [hs] at h
  · simp [hs] at h

/-- A poll within the attempt whose bytes are not empty and not accepted ends the attempt as `CORRUPT`, or the query, if
`CORRUPT_RETRY` is `false` (R159). -/
theorem pollWith_rejected {k : Option CmdSpec} {bytes : List Byte} {s : State} (hn : s.pollCnt < s.timing.nPoll)
    (hb : s.rxStore ++ bytes ≠ []) (ha : acceptedReply k s.xCmd (s.rxStore ++ bytes) = none) :
    (s.timing.corruptRetry = true ∧ pollWith k bytes s = endAttempt { polled bytes s with outcome := .corrupt }) ∨
    (s.timing.corruptRetry = false ∧
      pollWith k bytes s = raise .corrupt { polled bytes s with outcome := .corrupt }) := by
  rcases pollWith_cases k bytes s with
    ⟨h, -⟩ | ⟨-, h, -⟩ | ⟨-, h, -⟩ | ⟨-, r, h, -⟩ | ⟨-, -, -, hc, e⟩ | ⟨-, -, -, hc, e⟩
  · omega
  · exact absurd h hb
  · exact absurd h hb
  · simp [ha] at h
  · exact .inl ⟨hc, e⟩
  · exact .inr ⟨hc, e⟩

theorem polled_pollKept {bytes got : List Byte} {s : State} (h : s.rxStore ++ bytes = got) :
    PollKept s (polled bytes s) got := by
  constructor <;> simp [h]

theorem PollKept.waitFor {s t : State} {bytes : List Byte} (h : PollKept s t bytes) (n : Nat) :
    PollKept s (waitFor n t) bytes := by
  obtain ⟨more, e⟩ := h.polled
  exact { h with polled := ⟨more ++ [.wait n], by simp [e]⟩ }

theorem PollKept.endAttempt {s t : State} {bytes : List Byte} (h : PollKept s t bytes) :
    PollKept s (endAttempt t) bytes := by
  obtain ⟨more, e⟩ := h.polled
  have hpolled : ∃ m, (Machine.endAttempt t).trace = s.trace ++ .readAvailable bytes :: m :=
    ⟨more ++ [.now (clockAnswer t)], by simp [e]⟩
  rcases endAttempt_cases t with ⟨-, h'⟩ | ⟨-, h'⟩ <;> rw [h'] at hpolled ⊢ <;> exact { h with polled := hpolled }

theorem ResultKept.trans {s t u : State} (h : ResultKept s t) (g : ResultKept t u) : ResultKept s u :=
  ⟨g.resStatus.trans h.resStatus, g.resId.trans h.resId, g.resCmd.trans h.resCmd, g.resNp.trans h.resNp,
    g.resP0.trans h.resP0, g.resP1.trans h.resP1⟩

/-- The end of an attempt after its last poll, as seen from before that poll (R156). -/
theorem endAttempt_ended_since {s u : State} {how : AttemptOutcome} (ho : u.outcome = how)
    (htiming : u.timing = s.timing) (h0 : u.t0 = s.t0) (hvalid : u.resValid = s.resValid) (hkept : ResultKept s u) :
    AttemptEnded s (endAttempt u) how how.status := by
  subst ho
  have h := endAttempt_ended u
  refine ⟨h.outcome, fun hb => h.spent (by rwa [htiming, h0]), fun hb => ?_⟩
  obtain ⟨hp, hv, hk⟩ := h.retry (by rwa [htiming, h0])
  exact ⟨hp, hv.trans hvalid, hkept.trans hk⟩

/-- Settles O34, by the two ends of a poll that finds nothing. -/
theorem emptyPollWaits : Obligations.EmptyPollWaits := by
  intro s rest hp hr hn hs hi ho
  refine ⟨_, step_poll hp hr hi, ?_⟩
  have hkept : PollKept { s with inputs := rest } (emptyPolled { s with inputs := rest }) [] :=
    (polled_pollKept (by simp [hs])).waitFor _
  rcases pollWith_nothing (specAt s.xCmd) (s := { s with inputs := rest }) hs hn with ⟨hlt, e⟩ | ⟨hlast, e⟩
  · replace hlt : s.pollCnt + 1 < s.timing.nPoll := hlt
    rw [e]
    exact ⟨Nat.le_add_right _ _, hkept, fun _ => ⟨hp, ho, by simp [hs]⟩, fun h => by omega⟩
  · replace hlast : s.pollCnt + 1 = s.timing.nPoll := hlast
    have hended := endAttempt_ended_since (s := s) (u := emptyPolled { s with inputs := rest }) ho rfl rfl rfl
      ⟨rfl, rfl, rfl, rfl, rfl, rfl⟩
    rw [e, endAttempt_clock]
    exact ⟨(add_le_waitFor_clock _ (polled [] { s with inputs := rest })).trans (clock_le_clockAnswer _),
      hkept.endAttempt, fun h => by omega, fun _ => ⟨hended, by simp [hs]⟩⟩

/-- Settles O35: bytes that are no frame of the command's code with its reply count are not accepted. -/
theorem rejectedBytesEndAttempt : Obligations.RejectedBytesEndAttempt := by
  intro s bytes rest hp hr hn hi hb hno
  refine ⟨_, step_poll hp hr hi, ?_⟩
  have ha : acceptedReply (specAt s.xCmd) s.xCmd (s.rxStore ++ bytes) = none := by
    rw [Option.eq_none_iff_forall_ne_some]
    intro r h
    obtain ⟨-, -, hnp, hframe⟩ := acceptedReply_iff.mp h
    cases hk : specAt s.xCmd with
    | none => simp [hk, replyNpOf] at hnp
    | some k => exact hno k r.id r.args hk hframe (hk ▸ hnp)
  have hkept : PollKept { s with inputs := rest } { polled bytes { s with inputs := rest } with outcome := .corrupt }
      (s.rxStore ++ bytes) := { polled_pollKept (s := { s with inputs := rest }) rfl with }
  rcases pollWith_rejected (s := { s with inputs := rest }) hn hb ha with ⟨hc, e⟩ | ⟨hc, e⟩ <;>
    replace hc : s.timing.corruptRetry = _ := hc <;> rw [e]
  · have hended := endAttempt_ended_since (s := s)
      (u := { polled bytes { s with inputs := rest } with outcome := .corrupt }) rfl rfl rfl rfl
      ⟨rfl, rfl, rfl, rfl, rfl, rfl⟩
    rw [endAttempt_clock]
    exact ⟨clock_le_clockAnswer { polled bytes { s with inputs := rest } with outcome := .corrupt }, by simp,
      hkept.endAttempt, fun _ => ⟨hended, by simp⟩, fun h => by simp [hc] at h⟩
  · exact ⟨by simp, by simp, { hkept with }, fun h => by simp [hc] at h, fun _ => ⟨rfl, rfl, rfl, by simp⟩⟩

/-! ## The transmission and the settle wait of an attempt -/

/-- Settles O38: the step is the settle wait and the turn-around. -/
theorem settleThenReadMode : Obligations.SettleThenReadMode := by
  intro s hp hr
  refine ⟨_, step_busy_none (by simp [State.busy, hp]) hr, ?_⟩
  rw [transition_settle hp]
  exact ⟨rfl, rfl, Nat.le_add_right _ _, by simp, rfl, rfl, rfl, rfl, rfl, rfl⟩

/-- The kind of a command whose own part is known. -/
theorem kind_of_specAt_write {code : Byte} {w : WriteSpec} (h : specAt code = some (.write w)) :
    (Cmd.ofCode code).map Cmd.kind = some .write := by
  obtain ⟨c, hc, -, hw⟩ := specAt_some h
  simp [hc, kind_of_specOf_write hw.symm]

theorem kind_of_specAt_read {code : Byte} {r : ReadSpec} (h : specAt code = some (.read r)) :
    (Cmd.ofCode code).map Cmd.kind = some .read := by
  obtain ⟨c, hc, -, hr⟩ := specAt_some h
  simp [hc, kind_of_specOf_read hr.symm]

/-- The request of a read command has no parameter (R100), so its frame has six bytes. -/
theorem Checked.txbuf_length {s : State} {r : ReadSpec} (h : Checked s (.read r)) : s.txbuf.length = 6 := by
  obtain ⟨c, -, -, hr⟩ := specAt_some h.known
  have hnp : s.xNp = 0 := by
    rw [h.count, hr, specOf_cmd, Cmd.requestNp_of_read (kind_of_specOf_read hr.symm)]
  rcases encodeFrame_cases s.xId s.xCmd s.xNp s.xP0 s.xP1 with ⟨e, -⟩ | ⟨-, args, -, hargs, -, -, -, e⟩
  · rw [h.framed] at e
    cases e
  · rw [h.framed] at e
    rw [Except.ok.inj e]
    simp [hargs, hnp]

/-- Settles O37, by the two ends of phase `TX` of a read command. -/
theorem retryTransmitsAgain : Obligations.RetryTransmitsAgain := by
  rintro s - hp hr ⟨r, hc⟩
  refine ⟨_, step_busy_none (by simp [State.busy, hp]) hr, ?_⟩
  rw [transition_tx hp, hc.known]
  have htrace := transmit_trace (startAttempt s)
  rcases txPhase_read r s with ⟨ha, e⟩ | ⟨ha, e⟩ <;> rw [e]
  · exact ⟨rfl, rfl, rfl, rfl, rfl, hc.txbuf_length, rfl, rfl, htrace,
      fun _ => ⟨rfl, by simp [transmit, writeLine, ha]⟩, fun h => by simp [ha] at h⟩
  · exact ⟨rfl, rfl, rfl, rfl, rfl, hc.txbuf_length, rfl, rfl, htrace, fun h => by simp [ha] at h,
      fun _ => ⟨rfl, rfl, rfl⟩⟩

/-! ## The table of transitions -/

/-- A row of the table of R166, from `s` to `t`, with the line direction it leaves (R154, R155, R164). -/
inductive TableRow (s t : State) : Prop
  | refused (source : s.phase = .check) (target : t.phase = .idle) (valid : t.resValid = true)
      (result : t.resStatus = .invalidParameterCount ∨ t.resStatus = .outOfRange) (dir : t.dir = s.dir)
  | framed (source : s.phase = .check) (target : t.phase = .tx)
  | writeFailed (source : s.phase = .tx) (answer : (writeAnswer s).ok = false) (target : t.phase = .idle)
      (valid : t.resValid = true) (result : t.resStatus = .ioFailure) (dir : t.dir = .write)
  | written (w : WriteSpec) (source : s.phase = .tx) (answer : (writeAnswer s).ok = true)
      (checked : Checked s (.write w)) (target : t.phase = .idle) (valid : t.resValid = true)
      (result : t.resStatus = .ok) (dir : t.dir = .write)
  | requested (r : ReadSpec) (source : s.phase = .tx) (answer : (writeAnswer s).ok = true)
      (checked : Checked s (.read r)) (target : t.phase = .settle)
  | turnedAround (source : s.phase = .settle) (target : t.phase = .poll)
  | polledOn (source : s.phase = .poll) (target : t.phase = .poll) (count : t.pollCnt = s.pollCnt + 1)
  | answered (source : s.phase = .poll) (target : t.phase = .idle) (result : t.resStatus = .ok)
      (reply : replyHeld t = true) (dir : t.dir = .read)
  | retried (source : s.phase = .poll) (budget : t.clock - s.t0 < s.timing.tBudget) (target : t.phase = .tx)
  | timedOut (source : s.phase = .poll) (budget : s.timing.tBudget ≤ t.clock - s.t0) (target : t.phase = .idle)
      (valid : t.resValid = true) (outcome : t.outcome = .timeout) (result : t.resStatus = .timeout)
      (dir : t.dir = .read)
  | corrupted (source : s.phase = .poll)
      (budget : s.timing.tBudget ≤ t.clock - s.t0 ∨ s.timing.corruptRetry = false) (target : t.phase = .idle)
      (valid : t.resValid = true) (outcome : t.outcome = .corrupt) (result : t.resStatus = .corrupt)
      (dir : t.dir = .read)

theorem replyHeld_iff (s : State) : replyHeld s = true ↔
    s.resValid = true ∧ s.resStatus = .ok ∧ (Cmd.ofCode s.xCmd).map Cmd.kind = some .read := by
  simp [replyHeld, and_assoc]

theorem checkPhase_row {s : State} (hp : s.phase = .check) : TableRow s (checkPhase (specAt s.xCmd) s) := by
  cases hk : specAt s.xCmd with
  | none => exact .refused hp rfl rfl (.inl rfl) rfl
  | some k =>
    obtain ⟨c, -, hc, rfl⟩ := specAt_some hk
    rcases checkPhase_cases hc with ⟨-, e⟩ | ⟨-, -, e⟩ | ⟨-, -, -, frame, -, ⟨w, -, e⟩ | ⟨r, -, e⟩⟩ <;> rw [e]
    · exact .refused hp rfl rfl (.inl rfl) rfl
    · exact .refused hp rfl rfl (.inr rfl) rfl
    · exact .framed hp rfl
    · exact .framed hp rfl

theorem txPhase_row {s : State} {k : CmdSpec} (hp : s.phase = .tx) (hc : Checked s k) :
    TableRow s (txPhase (some k) s) := by
  cases k with
  | write w =>
    rcases txPhase_write w s with ⟨ha, e⟩ | ⟨ha, e⟩ <;> rw [e]
    · exact .written w hp ha hc rfl rfl rfl (updateShadow_dir (transmit s) w)
    · exact .writeFailed hp ha rfl rfl rfl rfl
  | read r =>
    rcases txPhase_read r s with ⟨ha, e⟩ | ⟨ha, e⟩ <;> rw [e]
    · exact .requested r hp ha hc rfl
    · exact .writeFailed hp ha rfl rfl rfl rfl

/-- The end of an attempt in state `u`, as a row from the state `s` before its last poll. -/
theorem endAttempt_row {s u : State} (hp : s.phase = .poll) (hd : u.dir = .read) (htiming : u.timing = s.timing)
    (h0 : u.t0 = s.t0) : TableRow s (endAttempt u) := by
  rcases endAttempt_cases u with ⟨hb, e⟩ | ⟨hb, e⟩ <;> rw [htiming, h0] at hb <;> rw [e]
  · cases ho : u.outcome with
    | timeout => exact .timedOut hp hb rfl rfl ho rfl hd
    | corrupt => exact .corrupted hp (.inl hb) rfl rfl ho rfl hd
  · exact .retried hp hb rfl

theorem pollNext_row {s : State} {r : ReadSpec} (hp : s.phase = .poll) (hd : s.dir = .read)
    (hk : specAt s.xCmd = some (.read r)) : TableRow s (pollNext (some (.read r)) s) := by
  have hdir : (dropArrival s).dir = .read := by simpa
  rw [pollNext]
  rcases pollWith_cases (some (.read r)) (arrival s) (dropArrival s) with
    ⟨-, e⟩ | ⟨-, -, e⟩ | ⟨-, -, e⟩ | ⟨-, reply, -, e⟩ | ⟨-, -, -, -, e⟩ | ⟨-, -, -, hc, e⟩ <;> rw [e]
  · exact endAttempt_row hp hdir (dropArrival_timing s) (dropArrival_t0 s)
  · exact .polledOn hp (by simpa) (by simp)
  · exact endAttempt_row hp hdir (dropArrival_timing s) (dropArrival_t0 s)
  · exact .answered hp rfl rfl ((replyHeld_iff _).mpr ⟨rfl, rfl, by simpa using kind_of_specAt_read hk⟩) hdir
  · exact endAttempt_row hp hdir (dropArrival_timing s) (dropArrival_t0 s)
  · exact .corrupted hp (.inr (by simpa using hc)) rfl rfl rfl rfl hdir

/-- Every transition of a busy engine is a row of the table (R166). -/
theorem Inv.transition_row {s : State} (h : Inv s) (hb : s.busy = true) :
    TableRow s (Machine.transition (specAt s.xCmd) s) := by
  cases hp : s.phase with
  | idle => simp [State.busy, hp] at hb
  | check =>
    rw [transition_check hp]
    exact checkPhase_row hp
  | tx =>
    obtain ⟨k, hc⟩ := h.txChecked hp
    rw [transition_tx hp, hc.known]
    exact txPhase_row hp hc
  | settle =>
    rw [transition_settle hp]
    exact .turnedAround hp rfl
  | poll =>
    obtain ⟨r, hc⟩ := h.pollChecked hp
    rw [transition_poll hp, hc.known]
    exact pollNext_row hp (h.pollReads hp) hc.known

/-- A row that ends a command leaves a result. -/
theorem TableRow.resValid {s t : State} (h : TableRow s t) (hp : t.phase = .idle) : t.resValid = true := by
  cases h with
  | refused _ _ valid | writeFailed _ _ _ valid | written _ _ _ _ _ valid | timedOut _ _ _ valid
  | corrupted _ _ _ valid => exact valid
  | answered _ _ _ reply => exact ((replyHeld_iff t).mp reply).1
  | framed _ target | requested _ _ _ _ target | turnedAround _ target | polledOn _ target | retried _ _ target =>
    simp [target] at hp

/-- Settles O39: the statement's alternatives are the rows of the table, in the same order. -/
theorem transitionTable : Obligations.TransitionTable := by
  refine ⟨fun s c _ => rfl, fun s h hb hr => ⟨_, step_busy_none hb hr, ?_, (h.transition_row hb).resValid⟩⟩
  cases h.transition_row hb with
  | refused source target _ result => exact .inl ⟨source, target, result⟩
  | framed source target => exact .inr (.inl ⟨source, target⟩)
  | writeFailed source answer target _ result => exact .inr (.inr (.inl ⟨source, answer, target, result⟩))
  | written w source answer checked target _ result =>
    exact .inr (.inr (.inr (.inl ⟨source, answer, ⟨w, checked⟩, target, result⟩)))
  | requested r source answer checked target =>
    exact .inr (.inr (.inr (.inr (.inl ⟨source, answer, ⟨r, checked⟩, target⟩))))
  | turnedAround source target => exact .inr (.inr (.inr (.inr (.inr (.inl ⟨source, target⟩)))))
  | polledOn source target count =>
    exact .inr (.inr (.inr (.inr (.inr (.inr (.inl ⟨source, target, count⟩))))))
  | answered source target result reply =>
    exact .inr (.inr (.inr (.inr (.inr (.inr (.inr (.inl ⟨source, target, result, reply⟩)))))))
  | retried source budget target =>
    exact .inr (.inr (.inr (.inr (.inr (.inr (.inr (.inr (.inl ⟨source, budget, target⟩))))))))
  | timedOut source budget target _ outcome result =>
    exact .inr (.inr (.inr (.inr (.inr (.inr (.inr (.inr (.inr (.inl ⟨source, budget, target, outcome, result⟩)))))))))
  | corrupted source budget target _ outcome result =>
    exact .inr (.inr (.inr (.inr (.inr (.inr (.inr (.inr (.inr (.inr ⟨source, budget, target, outcome, result⟩)))))))))

/-! ## The line direction after a command -/

/-- What the result of a command of `code` says of the line direction, if it was `before` at the start (R164). -/
structure LineLeft (before : Dir) (code : Byte) (t : State) : Prop where
  refused : t.resStatus = .outOfRange ∨ t.resStatus = .invalidParameterCount → t.dir = before
  failed  : t.resStatus = .ioFailure → t.dir = .write
  queried : t.resStatus = .timeout ∨ t.resStatus = .corrupt → t.dir = .read
  ended   : t.resStatus = .ok → ∀ k, Cmd.ofCode code = some k →
    t.dir = match k.kind with | .write => .write | .read => .read

/-- A row that ends a command leaves the line direction of its result. -/
theorem TableRow.lineLeft {s t : State} {before : Dir} {code : Byte} (h : TableRow s t) (hp : t.phase = .idle)
    (hs : s.xCmd = code) (ht : t.xCmd = code) (hd : s.phase = .check → s.dir = before) : LineLeft before code t := by
  cases h with
  | refused source _ _ result dir =>
    rw [hd source] at dir
    exact ⟨fun _ => dir, by rcases result with e | e <;> simp [e], by rcases result with e | e <;> simp [e],
      by rcases result with e | e <;> simp [e]⟩
  | writeFailed _ _ _ _ result dir => exact ⟨by simp [result], fun _ => dir, by simp [result], by simp [result]⟩
  | written w _ _ checked _ _ result dir =>
    refine ⟨by simp [result], by simp [result], by simp [result], fun _ k hk => ?_⟩
    have hkind := kind_of_specAt_write checked.known
    rw [hs, hk, Option.map_some, Option.some.injEq] at hkind
    rw [dir, hkind]
  | answered _ _ result reply dir =>
    refine ⟨by simp [result], by simp [result], by simp [result], fun _ k hk => ?_⟩
    obtain ⟨-, -, hkind⟩ := (replyHeld_iff t).mp reply
    rw [ht, hk, Option.map_some, Option.some.injEq] at hkind
    rw [dir, hkind]
  | timedOut _ _ _ _ _ result dir | corrupted _ _ _ _ _ result dir =>
    exact ⟨by simp [result], by simp [result], fun _ => dir, by simp [result]⟩
  | framed _ target | requested _ _ _ _ target | turnedAround _ target | polledOn _ target | retried _ _ target =>
    simp [target] at hp

/-- No row leads to phase `CHECK`. -/
theorem TableRow.not_check {s t : State} (h : TableRow s t) : t.phase ≠ .check := by
  cases h <;> simp [*]

/-- A command in a run that no reset cuts short: its code is in the latches, the line direction is as at the start while
it is checked, and as its result says when it has ended. -/
structure OnTheLine (before : Dir) (code : Byte) (t : State) : Prop where
  inv      : Inv t
  noReset  : t.resetIn = none
  latched  : t.xCmd = code
  checking : t.phase = .check → t.dir = before
  ended    : t.phase = .idle → LineLeft before code t

theorem OnTheLine.tick {before : Dir} {code : Byte} {k : CmdSpec} (hk : specAt code = some k) {t : State}
    (h : OnTheLine before code t) (hb : t.busy = true) : OnTheLine before code (tick (some k) t) := by
  obtain ⟨hinv, hr, hcode, hcheck, -⟩ := h
  have hrow := hinv.transition_row hb
  rw [hcode, hk] at hrow
  have hcode' : (transition (some k) t).xCmd = code := (transition_commandKept _ t).xCmd.trans hcode
  rw [tick_none hr]
  exact ⟨hinv.transition fun k' e => by rw [hcode, hk, e], ((transition_timePasses _ t).reads hr).1, hcode',
    fun hp => absurd hp hrow.not_check, fun hp => hrow.lineLeft hp hcode hcode' hcheck⟩

theorem busy_of_atRest {s : State} (h : atRest s = false) : s.busy = true := by
  by_contra hb
  rw [atRest_idle (by simpa [State.busy] using hb)] at h
  cases h

/-- A command with an own part on an idle engine: if its run is at an end, the line direction is that of its result. -/
theorem present_onTheLine {c : PortCmd} {k : CmdSpec} {s : State} (hk : specAt c.code = some k) (hs : Ready s)
    (h : Inv s) : OnTheLine s.dir c.code (present (some k) c s) := by
  rw [present_ready hs.idle]
  exact runCommand_induct (fun t ht hrest => ht.tick hk (busy_of_atRest hrest))
    ⟨h.accept c, hs.noReset, rfl, fun _ => rfl, fun hp => by simp at hp⟩ _

/-- Settles O44: a command that is no request row is refused; of the others, each row that ends one leaves the direction
of its result. -/
theorem directionAfterCommand : Obligations.DirectionAfterCommand := by
  intro c s hs h
  rcases decodeCommand_cases c with ⟨i, k, hd, hk, -, hcmd, -, -⟩ | ⟨hd, -⟩
  · have hpart : specAt c.code = some (specOf i.fields.cmd) := by simp [specAt, hk, hcmd]
    have hrun := present_onTheLine hpart hs h
    refine ⟨_, step_present_eq (s := { s with inputs := .present c :: s.inputs }) hs.idle (by simp [hs.noReset]) rfl,
      fun hv => ?_⟩
    rw [hd] at hv ⊢
    have hidle : (present (some (specOf i.fields.cmd)) c s).phase = .idle := by
      by_contra hne
      have := hrun.inv.busyNoResult (by simpa [State.busy] using hne)
      simp [this] at hv
    obtain ⟨h1, h2, h3, h4⟩ := hrun.ended hidle
    exact ⟨h1, h2, h3, h4⟩
  · obtain ⟨t, e, ht⟩ := step_present_refuses hs hd
    exact ⟨t, e, fun _ => ⟨fun _ => ht.dir, by simp [ht.resStatus], by simp [ht.resStatus], by simp [ht.resStatus]⟩⟩

/-! ## The transitions a command has left -/

/-- What is left of the budget of a query, by the engine's own comparison (R156). -/
def budgetLeft (s : State) : Nat := s.timing.tBudget - (s.clock - s.t0)

/-- The transitions of the attempts still to come after an attempt that ends with so much of the budget left: none when
it is spent, else one attempt, and one more for every tick. -/
def retryTransitions (nPoll left : Nat) : Nat := if left = 0 then 0 else (left + 1) * (nPoll + 3)

/-- A bound on the transitions a command has left, by its phase. -/
def transitionsLeft (s : State) : Nat :=
  match s.phase with
  | .idle => 0
  | .check => enoughTransitions s.timing
  | .tx => (budgetLeft s + 1) * (s.timing.nPoll + 3)
  | .settle => budgetLeft s * (s.timing.nPoll + 3) + (s.timing.nPoll + 2)
  | .poll => retryTransitions s.timing.nPoll (budgetLeft s) + (s.timing.nPoll - s.pollCnt) + 1

theorem transitionsLeft_idle {s : State} (h : s.phase = .idle) : transitionsLeft s = 0 := by
  simp [transitionsLeft, h]

theorem transitionsLeft_check {s : State} (h : s.phase = .check) :
    transitionsLeft s = (s.timing.tBudget + 1) * (s.timing.nPoll + 3) + 1 := by
  simp [transitionsLeft, h, enoughTransitions]

theorem transitionsLeft_tx {s : State} (h : s.phase = .tx) :
    transitionsLeft s = (budgetLeft s + 1) * (s.timing.nPoll + 3) := by
  simp [transitionsLeft, h]

theorem transitionsLeft_settle {s : State} (h : s.phase = .settle) :
    transitionsLeft s = budgetLeft s * (s.timing.nPoll + 3) + (s.timing.nPoll + 2) := by
  simp [transitionsLeft, h]

theorem transitionsLeft_poll {s : State} (h : s.phase = .poll) :
    transitionsLeft s = retryTransitions s.timing.nPoll (budgetLeft s) + (s.timing.nPoll - s.pollCnt) + 1 := by
  simp [transitionsLeft, h]

theorem budgetLeft_le (s : State) : budgetLeft s ≤ s.timing.tBudget := Nat.sub_le _ _

/-- Time that passes in a query leaves no more of its budget. -/
theorem budgetLeft_anti {s t : State} (htiming : t.timing = s.timing) (h0 : t.t0 = s.t0) (hclock : s.clock ≤ t.clock) :
    budgetLeft t ≤ budgetLeft s := by
  simp only [budgetLeft, htiming, h0]
  omega

theorem retryTransitions_mono (nPoll : Nat) {l m : Nat} (h : l ≤ m) :
    retryTransitions nPoll l ≤ retryTransitions nPoll m := by
  unfold retryTransitions
  split_ifs with hl hm
  · exact le_rfl
  · exact Nat.zero_le _
  · omega
  · exact Nat.mul_le_mul_right _ (by omega)

/-- An attempt that starts within the budget has the transitions that an earlier state of its query reckoned with. -/
theorem transitionsLeft_retry {s t : State} (hp : t.phase = .tx) (hb : t.clock - t.t0 < t.timing.tBudget)
    (htiming : t.timing = s.timing) (h0 : t.t0 = s.t0) (hclock : s.clock ≤ t.clock) :
    transitionsLeft t ≤ retryTransitions s.timing.nPoll (budgetLeft s) := by
  have hpos : budgetLeft t ≠ 0 := Nat.sub_ne_zero_of_lt hb
  calc transitionsLeft t = retryTransitions s.timing.nPoll (budgetLeft t) := by
        rw [transitionsLeft_tx hp, retryTransitions, if_neg hpos, htiming]
    _ ≤ retryTransitions s.timing.nPoll (budgetLeft s) :=
        retryTransitions_mono _ (budgetLeft_anti htiming h0 hclock)

theorem transitionsLeft_endAttempt {s u : State} (htiming : u.timing = s.timing) (h0 : u.t0 = s.t0)
    (hclock : s.clock ≤ u.clock) :
    transitionsLeft (endAttempt u) ≤ retryTransitions s.timing.nPoll (budgetLeft s) := by
  rcases endAttempt_cases u with ⟨-, e⟩ | ⟨hb, e⟩ <;> rw [e]
  · rw [transitionsLeft_idle rfl]
    exact Nat.zero_le _
  · exact transitionsLeft_retry rfl hb htiming h0 (hclock.trans (clock_le_clockAnswer u))

theorem checkPhase_transitionsLeft (k : Option CmdSpec) {s : State} (hp : s.phase = .check) :
    transitionsLeft (checkPhase k s) < transitionsLeft s := by
  have hframed : ∀ t : State, t.phase = .tx → t.timing = s.timing → transitionsLeft t < transitionsLeft s := by
    intro t ht htiming
    rw [transitionsLeft_check hp, transitionsLeft_tx ht, ← htiming]
    exact Nat.lt_succ_of_le (Nat.mul_le_mul_right _ (Nat.succ_le_succ (budgetLeft_le t)))
  rcases checkPhase_outcomes k s with ⟨e, h⟩ | ⟨frame, h⟩ | ⟨frame, h⟩ <;> rw [h]
  · rw [transitionsLeft_check hp, transitionsLeft_idle rfl]
    exact Nat.succ_pos _
  · exact hframed _ rfl rfl
  · exact hframed _ rfl rfl

theorem txPhase_transitionsLeft (k : Option CmdSpec) {s : State} (hp : s.phase = .tx) :
    transitionsLeft (txPhase k s) < transitionsLeft s := by
  have hended : ∀ t : State, t.phase = .idle → transitionsLeft t < transitionsLeft s := by
    intro t ht
    rw [transitionsLeft_idle ht, transitionsLeft_tx hp]
    exact Nat.mul_pos (Nat.succ_pos _) (Nat.succ_pos _)
  have hsent : ∀ t : State, t.phase = .settle → t.timing = s.timing → t.t0 = s.t0 → s.clock ≤ t.clock →
      transitionsLeft t < transitionsLeft s := by
    intro t ht htiming h0 hclock
    have hmul := Nat.mul_le_mul_right (s.timing.nPoll + 3) (budgetLeft_anti htiming h0 hclock)
    rw [transitionsLeft_tx hp, transitionsLeft_settle ht, htiming, Nat.succ_mul]
    omega
  rcases k with _ | w | r
  · exact hended _ rfl
  · rcases txPhase_write w s with ⟨-, e⟩ | ⟨-, e⟩ <;> rw [e] <;> exact hended _ rfl
  · rcases txPhase_read r s with ⟨-, e⟩ | ⟨-, e⟩ <;> rw [e]
    · exact hsent _ rfl rfl rfl (Nat.le_add_right _ _)
    · exact hended _ rfl

/-- The settle wait takes time (R5), which no later attempt has. -/
theorem settlePhase_transitionsLeft {s : State} (hp : s.phase = .settle) (hsettle : 1 ≤ s.timing.tSettle)
    (hclock : s.t0 ≤ s.clock) : transitionsLeft (settlePhase s) < transitionsLeft s := by
  rw [transitionsLeft_settle hp, transitionsLeft_poll rfl, settlePhase_timing, settlePhase_pollCnt, retryTransitions]
  split_ifs with h
  · omega
  · have hlt : budgetLeft (settlePhase s) + 1 ≤ budgetLeft s := by
      simp only [budgetLeft, settlePhase_timing, settlePhase_clock, settlePhase_t0] at h ⊢
      omega
    have hmul := Nat.mul_le_mul_right (s.timing.nPoll + 3) hlt
    omega

theorem pollWith_transitionsLeft (k : Option CmdSpec) (bytes : List Byte) {s : State} (hp : s.phase = .poll) :
    transitionsLeft (pollWith k bytes s) < transitionsLeft s := by
  have hattempt : ∀ u : State, u.timing = s.timing → u.t0 = s.t0 → s.clock ≤ u.clock →
      transitionsLeft (endAttempt u) < transitionsLeft s := by
    intro u htiming h0 hclock
    rw [transitionsLeft_poll hp]
    exact Nat.lt_succ_of_le ((transitionsLeft_endAttempt htiming h0 hclock).trans (Nat.le_add_right _ _))
  have hended : ∀ t : State, t.phase = .idle → transitionsLeft t < transitionsLeft s := by
    intro t ht
    rw [transitionsLeft_idle ht, transitionsLeft_poll hp]
    exact Nat.succ_pos _
  rcases pollWith_cases k bytes s with
    ⟨-, e⟩ | ⟨hn, -, e⟩ | ⟨-, -, e⟩ | ⟨-, r, -, e⟩ | ⟨-, -, -, -, e⟩ | ⟨-, -, -, -, e⟩ <;> rw [e]
  · exact hattempt _ rfl rfl le_rfl
  · have hle : budgetLeft (waitFor s.timing.tPoll (polled bytes s)) ≤ budgetLeft s :=
      budgetLeft_anti rfl rfl ((Nat.le_add_right _ _).trans (add_le_waitFor_clock _ (polled bytes s)))
    have hretry := retryTransitions_mono s.timing.nPoll hle
    rw [transitionsLeft_poll hp, transitionsLeft_poll (by simpa)]
    simp only [waitFor_timing, polled_timing, waitFor_pollCnt, polled_pollCnt]
    omega
  · exact hattempt _ rfl rfl ((Nat.le_add_right _ _).trans (add_le_waitFor_clock _ (polled bytes s)))
  · exact hended _ rfl
  · exact hattempt _ rfl rfl le_rfl
  · exact hended _ rfl

theorem dropArrival_transitionsLeft (s : State) : transitionsLeft (dropArrival s) = transitionsLeft s := by
  simp [transitionsLeft, budgetLeft]

/-- Every transition of a busy engine takes one from the transitions left; of the settle wait it must be known that its
query has begun. -/
theorem transition_transitionsLeft (k : Option CmdSpec) {s : State} (hb : s.busy = true)
    (hsettle : 1 ≤ s.timing.tSettle) (hclock : s.phase = .settle → s.t0 ≤ s.clock) :
    transitionsLeft (transition k s) < transitionsLeft s := by
  cases hp : s.phase with
  | idle => simp [State.busy, hp] at hb
  | check => rw [transition_check hp]; exact checkPhase_transitionsLeft k hp
  | tx => rw [transition_tx hp]; exact txPhase_transitionsLeft k hp
  | settle => rw [transition_settle hp]; exact settlePhase_transitionsLeft hp hsettle (hclock hp)
  | poll =>
    rw [transition_poll hp, ← dropArrival_transitionsLeft s]
    exact pollWith_transitionsLeft k _ (by simpa)

/-- A poll comes after three transitions of its command. -/
theorem transitionsLeft_poll_le {s : State} (hp : s.phase = .poll) (hclock : s.t0 < s.clock) :
    transitionsLeft s + 3 ≤ enoughTransitions s.timing := by
  rw [transitionsLeft_poll hp, retryTransitions, enoughTransitions]
  split_ifs with h
  · have := Nat.mul_le_mul_right (s.timing.nPoll + 3) (Nat.le_add_left 1 s.timing.tBudget)
    omega
  · have hlt : budgetLeft s + 1 ≤ s.timing.tBudget := by
      unfold budgetLeft at h ⊢
      omega
    have := Nat.mul_le_mul_right (s.timing.nPoll + 3) hlt
    rw [Nat.succ_mul s.timing.tBudget]
    omega

theorem Inv.settle_t0_le {s : State} (h : Inv s) (hp : s.phase = .settle) : s.t0 ≤ s.clock := by
  have := (h.settleTime hp).2
  omega

theorem Inv.poll_t0_lt {s : State} (h : Inv s) (hp : s.phase = .poll) : s.t0 < s.clock := by
  obtain ⟨hone, htime⟩ := h.pollTime hp
  have := Nat.mul_le_mul hone (Timing.ok_asked h.timingOk).1
  omega

theorem Inv.transitionsLeft_le {s : State} (h : Inv s) : transitionsLeft s ≤ enoughTransitions s.timing := by
  have hmul := Nat.mul_le_mul_right (s.timing.nPoll + 3) (budgetLeft_le s)
  cases hp : s.phase with
  | idle => rw [transitionsLeft_idle hp]; exact Nat.zero_le _
  | check => rw [transitionsLeft_check hp]; exact le_rfl
  | tx =>
    rw [transitionsLeft_tx hp, enoughTransitions, Nat.succ_mul, Nat.succ_mul]
    omega
  | settle =>
    rw [transitionsLeft_settle hp, enoughTransitions, Nat.succ_mul s.timing.tBudget]
    omega
  | poll => exact (Nat.le_add_right _ 3).trans (transitionsLeft_poll_le hp (h.poll_t0_lt hp))

/-- A step of a busy engine takes one from the transitions left: a transition as above, the reset because it leaves
none. -/
theorem Inv.step_transitionsLeft {s : State} (h : Inv s) (hb : s.busy = true) :
    ∃ t, step s = .next t ∧ Inv t ∧ transitionsLeft t < transitionsLeft s := by
  have hsettle := (Timing.ok_asked h.timingOk).1
  by_cases hr : s.resetIn = some 0
  · refine ⟨_, step_reset hr, h.applyReset, ?_⟩
    rw [transitionsLeft_idle rfl]
    exact (Nat.zero_le _).trans_lt (transition_transitionsLeft none hb hsettle h.settle_t0_le)
  · refine ⟨_, step_busy hb hr, h.tick fun _ hk => hk, ?_⟩
    obtain ⟨r, e⟩ := tick_eq_transition (specAt s.xCmd) hr
    rw [e]
    exact transition_transitionsLeft (s := { s with resetIn := r }) _ hb hsettle h.settle_t0_le

/-- An engine is idle after no more steps than transitions are left. -/
theorem Inv.steps_to_idle {n : Nat} {s : State} (h : Inv s) (hn : transitionsLeft s ≤ n) :
    ∃ m t, m ≤ n ∧ Steps m s t ∧ t.phase = .idle := by
  induction n generalizing s with
  | zero =>
    refine ⟨0, s, le_rfl, .zero s, ?_⟩
    by_contra hne
    obtain ⟨t, -, -, hlt⟩ := h.step_transitionsLeft (by simpa [State.busy] using hne)
    omega
  | succ n ih =>
    by_cases hidle : s.phase = .idle
    · exact ⟨0, s, Nat.zero_le _, .zero s, hidle⟩
    · obtain ⟨t, hstep, ht, hlt⟩ := h.step_transitionsLeft (by simpa [State.busy] using hidle)
      obtain ⟨m, u, hm, hsteps, hu⟩ := ih ht (by omega)
      exact ⟨m + 1, u, by omega, .succ hstep hsteps, hu⟩

/-- Settles O47: the invariant bounds the transitions left. -/
theorem everyCommandEnds : Obligations.EveryCommandEnds :=
  fun _ h _ => h.steps_to_idle h.transitionsLeft_le

/-- Settles O50: the invariant at the end of the run, in which the parameters are as before. -/
theorem attemptsAreBounded : Obligations.AttemptsAreBounded := by
  intro i s hq _ _ h
  have hinv : Inv (present (some (specOf i.fields.cmd)) i.portCmd s) := by
    simpa [decodeCommand_portCmd hq] using h.present i.portCmd
  refine ⟨_, exec_request hq s, ?_⟩
  have htiming := present_timing (some (specOf i.fields.cmd)) i.portCmd s
  have hbound := hinv.attemptsBound
  have hpos := (Timing.ok_asked h.timingOk).1
  rw [htiming] at hbound
  rw [Nat.le_div_iff_mul_le hpos]
  rcases hbound with hzero | hlt
  · simp [hzero]
  · rw [Nat.sub_mul, one_mul] at hlt
    omega

/-! ## A query on a silent channel -/

/-- A channel that stays silent, on which no `write` fails, after so many polls of a query: arrivals and answers suffice
for as long as the query can last, and each of its attempts so far is a `write` (R163). -/
structure SilentLine (T : Timing) (trace : List Event) (polls : Nat) (u : State) : Prop where
  noReset : u.resetIn = none
  timing  : u.timing = T
  store   : u.rxStore = []
  inputs  : ∀ x ∈ u.inputs, x = Input.arrive []
  writes  : ∀ a ∈ u.writes, a.ok = true
  polls   : T.tBudget * T.nPoll ≤ polls + u.inputs.length
  answers : T.tBudget ≤ u.attempts + u.writes.length
  traffic : ∃ more, u.trace = trace ++ more ∧ (writesOf more).length = u.attempts

/-- A read command on a silent channel past its check, by its phase: every attempt has polled `N_POLL` times and lasted
at least `T_SETTLE`, and it starts within the budget; so there are at most `T_BUDGET` of them. -/
inductive Silent (T : Timing) (trace : List Event) (u : State) : Prop
  | tx (line : SilentLine T trace (u.attempts * T.nPoll) u) (phase : u.phase = .tx)
      (lasted : u.t0 + u.attempts * T.tSettle ≤ u.clock) (budget : u.clock - u.t0 < T.tBudget)
  | settle (n : Nat) (line : SilentLine T trace (n * T.nPoll) u) (phase : u.phase = .settle)
      (attempts : u.attempts = n + 1) (bound : n < T.tBudget) (count : u.pollCnt = 0) (outcome : u.outcome = .timeout)
      (lasted : u.t0 + n * T.tSettle ≤ u.clock)
  | poll (n : Nat) (line : SilentLine T trace (n * T.nPoll + u.pollCnt) u) (phase : u.phase = .poll)
      (attempts : u.attempts = n + 1) (bound : n < T.tBudget) (count : u.pollCnt < T.nPoll)
      (outcome : u.outcome = .timeout) (lasted : u.t0 + (n + 1) * T.tSettle ≤ u.clock)
  | ended (polls : Nat) (line : SilentLine T trace polls u) (phase : u.phase = .idle) (valid : u.resValid = true)
      (result : u.resStatus = .timeout)

section Silent

variable {T : Timing} {trace : List Event} {polls : Nat} {u : State}

/-- The frame of an attempt is handed to the UART. -/
theorem SilentLine.transmit (h : SilentLine T trace polls u) {a : WriteAnswer} {later : List WriteAnswer}
    (hw : u.writes = a :: later) : SilentLine T trace polls { transmit (startAttempt u) with phase := .settle } := by
  obtain ⟨more, ht, hm⟩ := h.traffic
  have hwrites := h.writes
  have hanswers := h.answers
  rw [hw] at hwrites hanswers
  rw [List.forall_mem_cons] at hwrites
  rw [List.length_cons] at hanswers
  refine { h with
    writes := ?_
    answers := ?_
    traffic := ⟨more ++ [.setWriteMode, .write u.txbuf (writeAnswer u).ok], ?_, ?_⟩ }
  · simpa [Machine.transmit, hw] using hwrites.2
  · show T.tBudget ≤ u.attempts + 1 + u.writes.tail.length
    rw [hw, List.tail_cons]
    omega
  · simp [Machine.transmit, ht]
  · simp [Machine.transmit, writesOf_append, writesOf, hm]

theorem SilentLine.settlePhase (h : SilentLine T trace polls u) : SilentLine T trace polls (settlePhase u) := by
  obtain ⟨more, ht, hm⟩ := h.traffic
  exact { h with
    traffic := ⟨more ++ [.wait u.timing.tSettle, .setReadMode], by simp [ht], by simp [writesOf_append, writesOf, hm]⟩ }

theorem SilentLine.emptyPolled (h : SilentLine T trace polls u) {rest : List Input}
    (hi : u.inputs = .arrive [] :: rest) :
    SilentLine T trace (polls + 1) (emptyPolled { u with inputs := rest }) := by
  obtain ⟨more, ht, hm⟩ := h.traffic
  have hinputs := h.inputs
  have hpolls := h.polls
  rw [hi] at hinputs hpolls
  rw [List.forall_mem_cons] at hinputs
  rw [List.length_cons] at hpolls
  exact { h with
    store := rfl
    inputs := hinputs.2
    polls := show T.tBudget * T.nPoll ≤ polls + 1 + rest.length by omega
    traffic := ⟨more ++ [.readAvailable u.rxStore, .wait u.timing.tPoll], by simp [ht],
      by simp [writesOf_append, writesOf, hm]⟩ }

theorem SilentLine.endAttempt (h : SilentLine T trace polls u) : SilentLine T trace polls (endAttempt u) := by
  obtain ⟨more, ht, hm⟩ := h.traffic
  have htraffic : ∃ m, (Machine.endAttempt u).trace = trace ++ m ∧ (writesOf m).length = u.attempts :=
    ⟨more ++ [.now (clockAnswer u)], by simp [ht], by simp [writesOf_append, writesOf, hm]⟩
  rcases endAttempt_cases u with ⟨-, e⟩ | ⟨-, e⟩ <;> rw [e] at htraffic ⊢ <;> exact { h with traffic := htraffic }

theorem Silent.not_check (h : Silent T trace u) : u.phase ≠ .check := by
  cases h <;> simp [*]

/-- The one transition of phase `TX` on a silent channel: the query lasts, so there is an answer for its `write`, and it
is `ok`. -/
theorem Silent.tx_transition (h : Silent T trace u) (hT : T.ok = true) (hp : u.phase = .tx) (r : ReadSpec) :
    transition (some (.read r)) u = { transmit (startAttempt u) with phase := .settle } ∧
      Silent T trace { transmit (startAttempt u) with phase := .settle } := by
  cases h with
  | tx line _ lasted budget =>
    have hbound : u.attempts < T.tBudget := by
      have := Nat.mul_le_mul_left u.attempts (Timing.ok_asked hT).1
      omega
    obtain ⟨a, later, hw⟩ : ∃ a later, u.writes = a :: later :=
      List.exists_cons_of_length_pos (by have := line.answers; omega)
    have hok : (writeAnswer u).ok = true := by simpa [writeAnswer, hw] using line.writes a (by simp [hw])
    refine ⟨?_, .settle u.attempts (line.transmit hw) rfl rfl hbound rfl rfl (lasted.trans (Nat.le_add_right _ _))⟩
    rw [transition_tx hp]
    rcases txPhase_read r u with ⟨-, e⟩ | ⟨hno, -⟩
    · exact e
    · simp [hok] at hno
  | settle _ _ phase | poll _ _ phase | ended _ _ phase => simp [hp] at phase

theorem Silent.settle_transition (h : Silent T trace u) (hT : T.ok = true) (hp : u.phase = .settle) :
    Silent T trace (settlePhase u) := by
  cases h with
  | settle n line _ attempts bound count outcome lasted =>
    refine .poll n ?_ rfl attempts bound ?_ outcome ?_
    · simpa [count] using line.settlePhase
    · rw [settlePhase_pollCnt, count]
      exact (Timing.ok_asked hT).2.2.1
    · simp only [settlePhase_clock, settlePhase_t0, line.timing, Nat.succ_mul]
      omega
  | tx _ phase | poll _ _ phase | ended _ _ phase => simp [hp] at phase

/-- After the last poll of an attempt the next one is to start, or the query has ended with `TIMEOUT`. -/
theorem Silent.of_endAttempt {n : Nat} (line : SilentLine T trace ((n + 1) * T.nPoll) u) (attempts : u.attempts = n + 1)
    (outcome : u.outcome = .timeout) (lasted : u.t0 + (n + 1) * T.tSettle ≤ u.clock) :
    Silent T trace (endAttempt u) := by
  have hline := line.endAttempt
  have hlasted := lasted.trans (clock_le_clockAnswer u)
  rcases endAttempt_cases u with ⟨-, e⟩ | ⟨hb, e⟩ <;> rw [e] at hline ⊢
  · exact .ended _ hline rfl rfl (by simp [outcome, AttemptOutcome.status])
  · rw [line.timing] at hb
    rw [← attempts] at hline hlasted
    exact .tx hline rfl hlasted hb

/-- The transitions of phase `POLL` on a silent channel: the query lasts, so the state says what comes, which is
nothing. -/
theorem Silent.poll_transition (h : Silent T trace u) (hp : u.phase = .poll) (k : Option CmdSpec) :
    ∃ rest, u.inputs = .arrive [] :: rest ∧ Silent T trace (transition k u) ∧
      ((u.pollCnt + 1 < T.nPoll ∧ transition k u = emptyPolled { u with inputs := rest }) ∨
        (u.pollCnt + 1 = T.nPoll ∧ transition k u = endAttempt (emptyPolled { u with inputs := rest }))) := by
  cases h with
  | poll n line _ attempts bound count outcome lasted =>
    obtain ⟨x, rest, hx⟩ : ∃ x rest, u.inputs = x :: rest := by
      refine List.exists_cons_of_length_pos ?_
      have hpolls := line.polls
      have hattempt := Nat.mul_le_mul_right T.nPoll (show n + 1 ≤ T.tBudget from bound)
      rw [Nat.succ_mul] at hattempt
      omega
    have hi : u.inputs = .arrive [] :: rest := by rw [hx, line.inputs x (by simp [hx])]
    have hline := line.emptyPolled hi
    have hlasted := lasted.trans (clock_le_emptyPolled { u with inputs := rest })
    refine ⟨rest, hi, ?_⟩
    rw [transition_poll hp, pollNext_of_arrive hi]
    rcases pollWith_nothing k (s := { u with inputs := rest }) line.store (line.timing ▸ count) with
      ⟨hn, e⟩ | ⟨hn, e⟩ <;> rw [e]
    · replace hn : u.pollCnt + 1 < T.nPoll := line.timing ▸ hn
      exact ⟨.poll n hline hp attempts bound hn outcome hlasted, .inl ⟨hn, rfl⟩⟩
    · replace hn : u.pollCnt + 1 = T.nPoll := line.timing ▸ hn
      rw [show n * T.nPoll + u.pollCnt + 1 = (n + 1) * T.nPoll by rw [Nat.succ_mul]; omega] at hline
      exact ⟨.of_endAttempt hline attempts outcome hlasted, .inr ⟨hn, rfl⟩⟩
  | tx _ phase | settle _ _ phase | ended _ _ phase => simp [hp] at phase

/-- Every transition on a silent channel leaves the query on it. -/
theorem Silent.transition (h : Silent T trace u) (hT : T.ok = true) (hb : u.busy = true) (r : ReadSpec) :
    Silent T trace (transition (some (.read r)) u) := by
  cases hp : u.phase with
  | idle => simp [State.busy, hp] at hb
  | check => exact absurd hp h.not_check
  | tx =>
    obtain ⟨e, hnext⟩ := h.tx_transition hT hp r
    rwa [e]
  | settle => rw [transition_settle hp]; exact h.settle_transition hT hp
  | poll =>
    obtain ⟨-, -, hnext, -⟩ := h.poll_transition hp (some (.read r))
    exact hnext

/-! ### The first attempt within its worst case -/

/-- The first attempt polls, and what has passed of it, with the worst case of the polls to come, is within the budget:
no poll wait to come is longer than R8 has it, and no time passes before the clock is read. -/
structure FirstPolls (T : Timing) (u : State) : Prop where
  phase    : u.phase = .poll
  attempts : u.attempts = 1
  lapse    : lapse u = 0
  waits    : ∃ polls later, u.waits = polls ++ later ∧ polls.length + u.pollCnt = T.nPoll ∧
    (∀ e ∈ polls, T.tPoll + e ≤ T.pollMax) ∧ u.clock + polls.length * T.pollMax - u.t0 < T.tBudget

/-- The first attempt is followed by a second one: it polls within its worst case, or the second is to start, or has. -/
def TransmitsAgain (T : Timing) (u : State) : Prop :=
  FirstPolls T u ∨ (u.phase = .tx ∧ u.attempts = 1) ∨ 2 ≤ u.attempts

/-- A poll of the first attempt takes one of the waits, and after the last the budget is not spent. -/
theorem FirstPolls.transition (h : FirstPolls T u) (hs : Silent T trace u) (htiming : u.timing = T)
    (k : Option CmdSpec) : TransmitsAgain T (transition k u) := by
  obtain ⟨hp, hone, hlapse, polls, later, hwaits, hcount, hmax, hclock⟩ := h
  obtain ⟨rest, -, -, hnext⟩ := hs.poll_transition hp k
  obtain ⟨e, polls, rfl⟩ : ∃ e ps, polls = e :: ps := List.exists_cons_of_length_pos (by omega)
  rw [List.forall_mem_cons] at hmax
  rw [List.length_cons] at hcount hclock
  rw [Nat.succ_mul] at hclock
  have hafter : (emptyPolled { u with inputs := rest }).clock = u.clock + T.tPoll + e := by
    simp [emptyPolled_clock, waitExcess, hwaits, htiming]
  rcases hnext with ⟨-, h'⟩ | ⟨-, h'⟩ <;> rw [h']
  · refine .inl ⟨hp, hone, hlapse, polls, later, congrArg List.tail hwaits, ?_, hmax.2, ?_⟩
    · show polls.length + (u.pollCnt + 1) = T.nPoll
      omega
    · show (emptyPolled { u with inputs := rest }).clock + polls.length * T.pollMax - u.t0 < T.tBudget
      omega
  · have hanswer : clockAnswer (emptyPolled { u with inputs := rest }) = u.clock + T.tPoll + e := by
      rw [clockAnswer, hafter]
      exact congrArg (u.clock + T.tPoll + e + ·) hlapse
    rcases endAttempt_cases (emptyPolled { u with inputs := rest }) with ⟨hb, -⟩ | ⟨-, h''⟩
    · replace hb : u.timing.tBudget ≤ clockAnswer (emptyPolled { u with inputs := rest }) - u.t0 := hb
      rw [hanswer, htiming] at hb
      omega
    · rw [h'']
      exact .inr (.inl ⟨rfl, hone⟩)

theorem Silent.attempts_le_transition (h : Silent T trace u) (hT : T.ok = true) (hb : u.busy = true) (r : ReadSpec) :
    u.attempts ≤ (Machine.transition (some (.read r)) u).attempts := by
  cases hp : u.phase with
  | idle => simp [State.busy, hp] at hb
  | check => exact absurd hp h.not_check
  | tx =>
    obtain ⟨e, -⟩ := h.tx_transition hT hp r
    rw [e]
    exact Nat.le_succ _
  | settle => rw [transition_settle hp]; exact le_rfl
  | poll =>
    obtain ⟨rest, -, -, ⟨-, e⟩ | ⟨-, e⟩⟩ := h.poll_transition hp (some (.read r)) <;> rw [e]
    · exact le_rfl
    · simp

theorem TransmitsAgain.transition (h : TransmitsAgain T u) (hs : Silent T trace u) (hT : T.ok = true)
    (htiming : u.timing = T) (hb : u.busy = true) (r : ReadSpec) :
    TransmitsAgain T (transition (some (.read r)) u) := by
  rcases h with h | ⟨hp, hone⟩ | htwo
  · exact h.transition hs htiming _
  · obtain ⟨e, -⟩ := hs.tx_transition hT hp r
    rw [e]
    exact .inr (.inr (Nat.succ_le_succ hone.ge))
  · exact .inr (.inr (htwo.trans (hs.attempts_le_transition hT hb r)))

/-! ### The run -/

theorem Silent.line (h : Silent T trace u) : ∃ polls, SilentLine T trace polls u := by
  cases h with
  | tx line | settle _ line | poll _ line | ended _ line => exact ⟨_, line⟩

theorem Silent.settle_t0_le (h : Silent T trace u) (hp : u.phase = .settle) : u.t0 ≤ u.clock := by
  cases h with
  | settle _ _ _ _ _ _ _ lasted => omega
  | tx _ phase | poll _ _ phase | ended _ _ phase => simp [hp] at phase

/-- A query on a silent channel that transmits again ends: it has transitions enough, and its polls are all answered. -/
theorem Silent.runCommand (h : Silent T trace u) (hT : T.ok = true) (hagain : TransmitsAgain T u) (r : ReadSpec)
    {n : Nat} (hn : transitionsLeft u ≤ n) : ∃ t, Machine.runCommand (some (.read r)) n u = t ∧ Silent T trace t ∧
      t.phase = .idle ∧ 2 ≤ t.attempts := by
  have hstep : ∀ v, Silent T trace v ∧ TransmitsAgain T v → atRest v = false →
      (Silent T trace (tick (some (.read r)) v) ∧ TransmitsAgain T (tick (some (.read r)) v)) ∧
        transitionsLeft (tick (some (.read r)) v) < transitionsLeft v := by
    rintro v ⟨hv, hva⟩ hrest
    obtain ⟨polls, line⟩ := hv.line
    have hb := busy_of_atRest hrest
    have hsettle : 1 ≤ v.timing.tSettle := by rw [line.timing]; exact (Timing.ok_asked hT).1
    rw [tick_none line.noReset]
    exact ⟨⟨hv.transition hT hb r, hva.transition hv hT line.timing hb r⟩,
      transition_transitionsLeft _ hb hsettle hv.settle_t0_le⟩
  have hrest := runCommand_atRest transitionsLeft hstep ⟨h, hagain⟩ hn
  obtain ⟨ht, hta⟩ := runCommand_induct (fun v hv hr => (hstep v hv hr).1) ⟨h, hagain⟩ n
  have hidle : (Machine.runCommand (some (.read r)) n u).phase = .idle := by
    rcases atRest_cases hrest with hidle | ⟨hp, hno⟩
    · exact hidle
    · obtain ⟨rest, hi, -⟩ := ht.poll_transition hp none
      exact absurd hi (hno [] rest)
  refine ⟨_, rfl, ht, hidle, ?_⟩
  rcases hta with hfirst | ⟨hp, -⟩ | htwo
  · have := hfirst.phase
    simp [hidle] at this
  · simp [hidle] at hp
  · exact htwo

end Silent

/-- A read command at its first poll has made one transmission. -/
theorem asked_trace (p : PortCmd) (s : State) : (asked p s).trace = s.trace ++
    [.now (clockAnswer s), .setWriteMode, .write (frameOf p.id p.code p.args) (writeAnswer s).ok,
      .wait s.timing.tSettle, .setReadMode] := by
  simp [asked, requested, transmit]

theorem asked_clock (p : PortCmd) {s : State} {settle : Nat} {later : List Nat} (h : s.waits = settle :: later) :
    (asked p s).clock = clockAnswer s + (writeAnswer s).dur + s.timing.tSettle + settle := by
  simp [asked, requested, transmit, waitExcess, h]

/-- Settles O46: the first poll stands at the start of a query on a silent channel whose first attempt is in time. -/
theorem silentChannelTimesOut : Obligations.SilentChannelTimesOut := by
  intro i s first writes settle polls waits before lapses hq hkind hid hs hT hstore hin hlen hw hok hwlen hdur hwaits
    hpolls hsettle hmax hlapses
  obtain ⟨r, hk⟩ := specOf_read hkind
  obtain ⟨-, hnp, -⟩ := Instr.request_fields hq
  obtain ⟨hone, -, hnPoll, -, -, hworst⟩ := (Timing.ok_iff _).mp hT
  have hanswer : writeAnswer s = first := by simp [writeAnswer, hw]
  have hfirst : first.ok = true := hok first (by simp [hw])
  have hclock := asked_clock i.portCmd hwaits
  rw [hanswer] at hclock
  have hbudget : first.dur + (s.timing.tSettle + settle) + s.timing.nPoll * s.timing.pollMax < s.timing.tBudget := by
    unfold Timing.worstSilentAttempt at hworst
    omega
  have hlasted : clockAnswer s + s.timing.tSettle ≤ (asked i.portCmd s).clock := by
    rw [hclock]
    omega
  have hsilent : Silent s.timing s.trace (asked i.portCmd s) := by
    refine .poll 0 ⟨hs.noReset, rfl, hstore, hin, ?_, ?_, ?_, _, asked_trace i.portCmd s, rfl⟩ rfl rfl (by omega)
      hnPoll rfl ?_
    · exact fun a ha => hok a (List.mem_of_mem_tail ha)
    · show s.timing.tBudget * s.timing.nPoll ≤ 0 * s.timing.nPoll + 0 + s.inputs.length
      omega
    · show s.timing.tBudget ≤ 1 + s.writes.tail.length
      rw [List.length_tail]
      omega
    · rw [Nat.zero_add, one_mul]
      exact hlasted
  have hagain : TransmitsAgain s.timing (asked i.portCmd s) := by
    refine .inl ⟨rfl, rfl, ?_, polls, waits, ?_, hpolls, hmax, ?_⟩
    · show lapse (startQuery s) = 0
      simp [lapse, startQuery, readClock, hlapses]
    · show s.waits.tail = polls ++ waits
      rw [hwaits]
      rfl
    · show (asked i.portCmd s).clock + polls.length * s.timing.pollMax - clockAnswer s < s.timing.tBudget
      rw [hclock, hpolls]
      omega
  rcases present_read (p := i.portCmd) hk rfl hnp hs with ⟨h, -⟩ | ⟨-, h, -⟩ | ⟨-, -, n, hn, e⟩
  · exact absurd h hid
  · simp [hanswer, hfirst] at h
  · have hleft : transitionsLeft (asked i.portCmd s) + 3 ≤ enoughTransitions s.timing :=
      transitionsLeft_poll_le rfl ((Nat.lt_add_of_pos_right hone).trans_le hlasted)
    obtain ⟨t, ht, hquery, hidle, htwo⟩ := hsilent.runCommand hT hagain r (n := n) (by omega)
    rw [hk, ht] at e
    cases hquery with
    | ended _ line _ valid result =>
      obtain ⟨more, htrace, hmore⟩ := line.traffic
      exact ⟨t, more, by rw [exec_request hq, hk, e], hidle, valid, result, htwo, htrace, hmore⟩
    | tx _ phase | settle _ _ phase | poll _ _ phase => simp [hidle] at phase

end Sys2Proof.Machine
end

section
/-! SUPPORT. Proofs of the statements of `42_write_commands.md`: what a write command does to its end, and the rule of
each write command, from its own range check and shadow update. -/

namespace Sys2Proof.Machine

/-! ## The end of a write command -/

/-- The snapshot of a unicast ID after a write command that ended `Ok` with these parameters (R31). -/
def WriteSpec.updated (w : WriteSpec) (p0 p1 : Word) : ServoState → ServoState :=
  (w.update.map fun f => f p0 p1).getD id

/-- The shadow update changes the snapshot of the command's unicast ID alone (R31, R32). -/
theorem updateShadow_changed {c : Cmd} {w : WriteSpec} (hw : specOf c = .write w) (s : State) :
    ShadowChanged s (updateShadow w s) s.xId (w.updated s.xP0 s.xP1) := by
  intro j
  rw [updateShadow_get hw, WriteSpec.updated]
  cases w.update with
  | none => exact (ite_self _).symm
  | some f => rfl

section
variable {c : Cmd} {w : WriteSpec} {p : PortCmd} {s : State} (hk : specOf c = .write w) (hcode : p.code = c.code)
  (hnp : p.args.np = c.requestNp) (hs : Ready s)
include hk hcode hnp hs

/-- A write command that passes its checks transmits its frame, and ends with its shadow update if the `write`
succeeds (R181). -/
theorem present_write_ok (hid : p.id ≠ 255) (hr : w.rangeOk (accept p s).xP0 (accept p s).xP1 = true)
    (ha : (writeAnswer s).ok = true) :
    Transmitted s (present (some (specOf c)) p s) p (frameOf p.id p.code p.args) true .ok ∧
      ShadowChanged s (present (some (specOf c)) p s) p.id (w.updated (accept p s).xP0 (accept p s).xP1) := by
  rcases present_write hk hcode hnp hs with ⟨h, -⟩ | ⟨-, -, -, e⟩ | ⟨-, -, hf, -⟩
  · exact absurd (hr.symm.trans (h.resolve_left hid)) (by decide)
  · rw [e]
    refine ⟨?_, updateShadow_changed hk (transmit (framed p s))⟩
    rw [updateShadow_eq, ← ha]
    exact transmitted_endWithoutReply p s _ .ok
  · exact absurd (ha.symm.trans hf) (by decide)

/-- If the `write` fails, it ends with `IoFailure` and without the update (R151, R181). -/
theorem present_write_failed (hid : p.id ≠ 255) (hr : w.rangeOk (accept p s).xP0 (accept p s).xP1 = true)
    (ha : (writeAnswer s).ok = false) :
    Transmitted s (present (some (specOf c)) p s) p (frameOf p.id p.code p.args) false .ioFailure ∧
      (present (some (specOf c)) p s).shadow = s.shadow := by
  rcases present_write hk hcode hnp hs with ⟨h, -⟩ | ⟨-, -, hf, -⟩ | ⟨-, -, -, e⟩
  · exact absurd (hr.symm.trans (h.resolve_left hid)) (by decide)
  · exact absurd (ha.symm.trans hf) (by decide)
  · rw [e, ← ha]
    exact ⟨transmitted_endWithoutReply p s _ .ioFailure, rfl⟩

end

/-! ## The rules of the write commands -/

/-- The rule of a write command (R181) follows from its own part: its range check says `inRange`, and within the range
its update is `f`. -/
theorem writeRule {i : Instr} {w : WriteSpec} {inRange : Prop} {f : ServoState → ServoState} (hq : i.isReply = false)
    (hk : specOf i.fields.cmd = .write w)
    (hrange : ∀ s, w.rangeOk (accept i.portCmd s).xP0 (accept i.portCmd s).xP1 = true ↔ inRange)
    (hupdate : inRange → ∀ s, w.updated (accept i.portCmd s).xP0 (accept i.portCmd s).xP1 = f) :
    WriteRule i i.portCmd (frameOf i.portCmd.id i.portCmd.code i.portCmd.args) inRange f := by
  intro s hs
  obtain ⟨-, hnp, -⟩ := Instr.request_fields hq
  refine ⟨fun h => ⟨_, exec_request hq s, present_refuses rfl hnp hs (h.imp_right fun hr => ?_)⟩,
    fun hid hr ha => ⟨_, exec_request hq s, ?_⟩,
    fun hid hr ha => ⟨_, exec_request hq s, present_write_failed hk rfl hnp hs hid ((hrange s).mpr hr) ha⟩⟩
  · rw [hk]
    exact Bool.eq_false_iff.mpr (mt (hrange s).mp hr)
  · rw [← hupdate hr s]
    exact present_write_ok hk rfl hnp hs hid ((hrange s).mpr hr) ha

/-- A write command with no range (R184, R185, R187, R191, R193, R194). -/
theorem writeRule_unchecked {i : Instr} {w : WriteSpec} {f : ServoState → ServoState} (hq : i.isReply = false)
    (hk : specOf i.fields.cmd = .write w) (hrange : ∀ p0 p1, w.rangeOk p0 p1 = true)
    (hupdate : ∀ s, w.updated (accept i.portCmd s).xP0 (accept i.portCmd s).xP1 = f) :
    WriteRule i i.portCmd (frameOf i.portCmd.id i.portCmd.code i.portCmd.args) True f :=
  writeRule hq hk (fun _ => iff_true_intro (hrange _ _)) fun _ => hupdate

/-- Within its range a load value is the bit it is recorded as (R192). -/
theorem loaded_of_le_one {v : Word} (h : v.toNat ≤ 1) : loaded v = decide (v.toNat = 1) := by
  rw [loaded_eq]
  exact decide_eq_decide.mpr (by omega)

/-- Settles O22: the range and the update of the two moves. -/
theorem moveWriteRules : Obligations.MoveWriteRules := fun _ pos dur =>
  ⟨writeRule rfl rfl (fun _ => moveInRange_iff pos dur) fun _ _ => rfl,
    writeRule rfl rfl (fun _ => moveInRange_iff pos dur) fun _ _ => rfl⟩

/-- Settles O23: the three commands have neither a range nor an update. -/
theorem plainWriteRules : Obligations.PlainWriteRules := fun _ =>
  ⟨writeRule_unchecked rfl rfl (fun _ _ => rfl) fun _ => rfl, writeRule_unchecked rfl rfl (fun _ _ => rfl) fun _ => rfl,
    writeRule_unchecked rfl rfl (fun _ _ => rfl) fun _ => rfl⟩

/-- Settles O24: the range and the update are of the signed reading of the pattern. -/
theorem offsetAdjustRule : Obligations.OffsetAdjustRule := by
  intro id offset
  refine writeRule rfl rfl (fun _ => offsetOk_iff offset) fun _ _ => ?_
  rw [← s16_eq_toInt]
  rfl

/-- Settles O25: the ranges and the updates of the three limits. -/
theorem limitWriteRules : Obligations.LimitWriteRules := fun _ low high limit =>
  ⟨writeRule rfl rfl (fun _ => rotationLimitsOk_iff low high) fun _ _ => rfl,
    writeRule rfl rfl (fun _ => voltageLimitsOk_iff low high) fun _ _ => rfl,
    writeRule rfl rfl (fun _ => tempLimitOk_iff limit) fun _ _ => rfl⟩

/-- Settles O26: of the four, load-write alone has a range, in which its value is the bit that is recorded. -/
theorem modeWriteRules : Obligations.ModeWriteRules := by
  intro id mode speed v
  refine ⟨writeRule_unchecked rfl rfl (fun _ _ => rfl) fun _ => rfl,
    writeRule rfl rfl (fun _ => loadOk_iff v) fun hv _ => ?_,
    writeRule_unchecked rfl rfl (fun _ _ => rfl) fun _ => rfl, writeRule_unchecked rfl rfl (fun _ _ => rfl) fun _ => rfl⟩
  rw [← loaded_of_le_one hv]
  rfl

/-! ## The calls of a write command -/

/-- A presented command is refused before any call, or transmits its frame and ends with the result of the `write`. -/
def EndsInOneStep (s t : State) (c : PortCmd) : Prop :=
  (∃ e, (e = .outOfRange ∨ e = .invalidParameterCount) ∧ Refused s t c e) ∨
    ∃ r, (r = .ok ∨ r = .ioFailure) ∧ Transmitted s t c (frameOf c.id c.code c.args) (writeAnswer s).ok r

/-- A write command ends in the step that takes it. -/
theorem present_write_ends {c : Cmd} {p : PortCmd} {s : State} (hkind : c.kind = .write) (hcode : p.code = c.code)
    (hnp : p.args.np = c.requestNp) (hs : Ready s) : EndsInOneStep s (present (some (specOf c)) p s) p := by
  obtain ⟨w, hk⟩ := specOf_write hkind
  by_cases h : p.id = 255 ∨ (specOf c).rangeOk (accept p s).xP0 (accept p s).xP1 = false
  · exact .inl ⟨_, .inl rfl, present_refuses hcode hnp hs h⟩
  · rw [not_or, Bool.not_eq_false, hk] at h
    obtain ⟨hid, hr⟩ := h
    cases ha : (writeAnswer s).ok with
    | true => exact .inr ⟨_, .inl rfl, ha ▸ (present_write_ok hk hcode hnp hs hid hr ha).1⟩
    | false => exact .inr ⟨_, .inr rfl, ha ▸ (present_write_failed hk hcode hnp hs hid hr ha).1⟩

/-- So does a command on the port that is no request row, which is refused. -/
theorem step_present_write_ends {c : PortCmd} {s : State} (hs : Ready s)
    (hkind : ∀ k, Cmd.ofCode c.code = some k → k.kind = .write) :
    ∃ t, step { s with inputs := .present c :: s.inputs } = .next t ∧ EndsInOneStep s t c := by
  rcases decodeCommand_cases c with ⟨i, k, hd, hk, -, rfl, -, hnp⟩ | ⟨hd, -⟩
  · have e := step_present_eq (s := { s with inputs := .present c :: s.inputs }) hs.idle (by simp [hs.noReset]) rfl
    rw [hd] at e
    exact ⟨_, e, present_write_ends (hkind _ hk) (Cmd.code_of_ofCode hk).symm hnp hs⟩
  · obtain ⟨t, e, ht⟩ := step_present_refuses hs hd
    exact ⟨t, e, .inl ⟨_, .inr rfl, ht⟩⟩

/-- Settles O27: a refusal makes no call, and a transmission the two calls of `SEND_COMMAND`. -/
theorem writeCommandsMakeOneCall : Obligations.WriteCommandsMakeOneCall := by
  intro c s hs hkind
  obtain ⟨t, e, ⟨r, hr, ht⟩ | ⟨r, hr, ht⟩⟩ := step_present_write_ends hs hkind
  · exact ⟨t, [], e, ht.phase, ht.resValid, by rw [ht.trace, List.append_nil], List.forall_mem_nil _,
      .inr ⟨by rwa [ht.resStatus], rfl, ht.clock⟩⟩
  · exact ⟨t, [_, _], e, ht.phase, ht.resValid, ht.trace, by simp [Event.ofQuery],
      .inl ⟨by rwa [ht.resStatus], rfl, ht.clock⟩⟩

end Sys2Proof.Machine
end

section
/-! SUPPORT. Proofs of the statements of `43_read_commands.md`: the accepted reply and its typed result, the rule of
each reply row, the start of a query and its answer at the first poll, how a query goes on from there, and the rule of
each read command, from its own reply count and typing. -/

namespace Sys2Proof.Machine

/-! ## The accepted reply -/

/-- The typed result of a reply with these parameters; one it does not carry does not count (R211). -/
def ReadSpec.typedOf (r : ReadSpec) (args : Args) : Typed := r.typed (args.first.getD 0) (args.second.getD 0)

/-- The result of a read command whose reply has one parameter is of that parameter (R210, R211). -/
theorem typed_of_replyNp_one {c : Cmd} {r : ReadSpec} (hk : specOf c = .read r) (hn : r.replyNp = 1) (p0 p1 q1 : Word) :
    r.typed p0 p1 = r.typed p0 q1 := by
  cases c with
  | moveRead | moveStageRead | rotationLimitRead | voltageLimitRead | motorModeRead =>
    cases hk
    exact absurd hn (by decide)
  | offsetRead | tempLimitRead | tempRead | voltageRead | positionRead | loadRead | ledModeRead | ledFaultRead =>
    cases hk
    rfl
  | _ => cases hk

/-- What stands in the reply registers for a parameter that the reply does not carry makes no difference to the result
(R29, R211). -/
theorem typed_getD_eq_typedOf {c : Cmd} {r : ReadSpec} {args : Args} (hk : specOf c = .read r)
    (hn : args.np = r.replyNp) (q0 q1 : Word) :
    r.typed (args.first.getD q0) (args.second.getD q1) = r.typedOf args := by
  cases args with
  | zero => exact absurd hn.symm (replyNp_ne_zero hk)
  | one p0 => exact typed_of_replyNp_one hk hn.symm p0 _ _
  | two p0 p1 => rfl

/-- The end of a read command with a reply leaves it in the reply registers (R158). -/
theorem endWithReply_holdsReply (reply : Reply) (s : State) :
    HoldsReply (endWithReply reply s) reply.id reply.code reply.args :=
  ⟨rfl, rfl, rfl, rfl, rfl, rfl, fun p h => by simp [h], fun p h => by simp [h]⟩

/-- Its typed result is that of the reply (R211). -/
theorem typedResult_endWithReply {r : ReadSpec} {reply : Reply} {s : State} (hk : specAt reply.code = some (.read r))
    (hcode : s.xCmd = reply.code) (hn : reply.args.np = r.replyNp) :
    typedResult (endWithReply reply s) = some (r.typedOf reply.args) := by
  have hheld : replyHeld (endWithReply reply s) = true :=
    (replyHeld_iff _).mpr ⟨rfl, rfl, by simpa [hcode] using kind_of_specAt_read hk⟩
  obtain ⟨c, -, -, hc⟩ := specAt_some hk
  rw [typedResult_held hheld hk]
  exact congrArg some (typed_getD_eq_typedOf hc.symm hn _ _)

/-- A poll within the attempt that brings a frame of the command's code with its reply count ends the query (R158). -/
theorem pollWith_accepted {r : ReadSpec} {bytes : List Byte} {s : State} {id : Byte} {args : Args}
    (hk : specAt s.xCmd = some (.read r)) (hn : s.pollCnt < s.timing.nPoll)
    (hb : s.rxStore ++ bytes = frameOf id s.xCmd args) (hargs : args.np = r.replyNp) :
    pollWith (some (.read r)) bytes s = endWithReply ⟨id, s.xCmd, args⟩ (polled bytes s) := by
  obtain ⟨c, hc, -, -⟩ := specAt_some hk
  have ha : acceptedReply (some (.read r)) s.xCmd (s.rxStore ++ bytes) = some ⟨id, s.xCmd, args⟩ :=
    acceptedReply_iff.mpr ⟨rfl, by simp [hc], by simp [replyNpOf, hargs], hb⟩
  have hne : s.rxStore ++ bytes ≠ [] := hb ▸ frameOf_ne_nil id s.xCmd args
  rw [pollWith, if_pos hn, pollPhase_receive, if_neg hne, ha]

/-! ## The rules of the reply rows -/

/-- A frame that is one with its own checksum carries the checksum of its body (R90, R95). -/
theorem checksum_of_frameWith_eq {id id' code code' chk : Byte} {args args' : Args}
    (h : frameWith id code args chk = frameOf id' code' args') : chk = checksum (frameBody id code args) := by
  obtain ⟨hbody, hchk⟩ := List.append_inj' h rfl
  rw [List.append_cancel_left hbody]
  exact List.head_eq_of_cons_eq hchk

section
variable {i : Instr} {r : ReadSpec} {chk : Byte} {s : State} (hk : specOf i.fields.cmd = .read r)
  (hchk : i.fields.chk = some chk)
include hchk

/-- A reply row that no poll waits for stays in the UART (R295). -/
theorem exec_reply_stored (hp : s.phase ≠ .poll) : exec i s =
    .next { s with rxStore := s.rxStore ++ frameWith i.fields.id i.fields.cmd.code i.fields.args chk } := by
  rw [exec_reply (by simp [Instr.isReply, hchk]), encode_eq, hchk, arrive, deliver, if_neg hp]
  rfl

include hk

/-- A reply row that meets a poll of its command answers it (R157). -/
theorem exec_reply_polled (hp : s.phase = .poll) (hr : s.resetIn = none) (hcode : s.xCmd = i.fields.cmd.code) :
    exec i s = .next
      (pollWith (some (.read r)) (frameWith i.fields.id i.fields.cmd.code i.fields.args chk) s) := by
  rw [exec_reply (by simp [Instr.isReply, hchk]), encode_eq, hchk, arrive, deliver, if_pos hp, underReset_none hr,
    hcode, specAt_code, hk]
  rfl

end

/-- What a poll leaves alone, when no byte stood in the UART before. -/
theorem polled_pollKept_of_empty {s : State} (hstore : s.rxStore = []) (bytes : List Byte) :
    PollKept s (polled bytes s) bytes :=
  polled_pollKept (by rw [hstore, List.nil_append])

/-- A poll that has brought bytes which are not accepted (R159). -/
def corruptPolled (bytes : List Byte) (s : State) : State := { polled bytes s with outcome := .corrupt }

/-- The attempt that such a poll ends, as seen from before the poll (R156, R159). -/
theorem corruptPolled_ended {s : State} (hstore : s.rxStore = []) (bytes : List Byte) :
    s.clock ≤ (endAttempt (corruptPolled bytes s)).clock ∧ (endAttempt (corruptPolled bytes s)).waits = s.waits ∧
      AttemptEnded s (endAttempt (corruptPolled bytes s)) .corrupt .corrupt ∧
      PollKept s (endAttempt (corruptPolled bytes s)) bytes := by
  have hkept : PollKept s (corruptPolled bytes s) bytes := { polled_pollKept_of_empty hstore bytes with }
  refine ⟨?_, endAttempt_waits _, endAttempt_ended_since rfl rfl rfl rfl ⟨rfl, rfl, rfl, rfl, rfl, rfl⟩,
    hkept.endAttempt⟩
  rw [endAttempt_clock]
  exact clock_le_clockAnswer (corruptPolled bytes s)

section
variable {s : State} {id code chk : Byte} {args : Args} (hn : s.pollCnt < s.timing.nPoll) (hstore : s.rxStore = [])
include hn hstore

/-- A poll that brings a frame with the right checksum, of the command's code and with its reply count, ends the query
with it (R158). -/
theorem pollWith_right_checksum {r : ReadSpec} (hk : specAt code = some (.read r)) (hcode : s.xCmd = code)
    (hargs : args.np = r.replyNp) (hright : chk = checksum (frameBody id code args)) :
    pollWith (some (.read r)) (frameWith id code args chk) s =
      endWithReply ⟨id, code, args⟩ (polled (frameWith id code args chk) s) := by
  subst hcode hright
  exact pollWith_accepted hk hn (by rw [hstore, List.nil_append, frameOf]) hargs

/-- A poll that brings a frame with a wrong checksum ends its attempt as `CORRUPT` (R159). -/
theorem pollWith_wrong_checksum (k : Option CmdSpec) (hwrong : chk ≠ checksum (frameBody id code args))
    (hretry : s.timing.corruptRetry = true) :
    pollWith k (frameWith id code args chk) s = endAttempt (corruptPolled (frameWith id code args chk) s) := by
  have hreject : acceptedReply k s.xCmd (s.rxStore ++ frameWith id code args chk) = none := by
    rw [hstore, List.nil_append, Option.eq_none_iff_forall_ne_some]
    intro reply h
    obtain ⟨-, -, -, hb⟩ := acceptedReply_iff.mp h
    exact hwrong (checksum_of_frameWith_eq hb)
  rcases pollWith_rejected hn (by simp [frameWith]) hreject with ⟨-, e⟩ | ⟨hno, -⟩
  · exact e
  · exact absurd (hretry.symm.trans hno) (by decide)

end

/-- The rule of a reply row follows from the own part of its command (R157 to R159, R295). -/
theorem replyRule {i : Instr} {r : ReadSpec} {chk : Byte} {typed : Typed} (hk : specOf i.fields.cmd = .read r)
    (hchk : i.fields.chk = some chk) (hargs : i.fields.args.np = r.replyNp) (ht : r.typedOf i.fields.args = typed) :
    ReplyRule i i.fields.id i.fields.cmd.code i.fields.args chk typed := by
  refine fun s => ⟨exec_reply_stored hchk, fun hp hr hn hstore hcode => ?_⟩
  have hspec : specAt i.fields.cmd.code = some (.read r) := by rw [specAt_code, hk]
  rw [exec_reply_polled hk hchk hp hr hcode, ← ht]
  refine ⟨fun hright => ?_, fun hwrong hretry => ?_⟩
  · rw [pollWith_right_checksum hn hstore hspec hcode hargs hright]
    exact ⟨_, rfl, endWithReply_holdsReply _ _, typedResult_endWithReply hspec hcode hargs, rfl, rfl, rfl, rfl,
      { polled_pollKept_of_empty hstore _ with }⟩
  · rw [pollWith_wrong_checksum hn hstore _ hwrong hretry]
    exact ⟨_, rfl, corruptPolled_ended hstore _⟩

/-! ## The start of a query, and an answer at its first poll -/

/-- A query whose first `write` has failed (R151). -/
theorem AskFailed.of_raise (p : PortCmd) {s : State} (ha : (writeAnswer s).ok = false) :
    AskFailed s (raise .ioFailure (transmit (startAttempt (startQuery (framed p s))))) p
      (frameOf p.id p.code p.args) where
  latched := { accept_latched p s with }
  phase := rfl
  resValid := rfl
  resStatus := rfl
  dir := rfl
  txbuf := rfl
  trace := by simp [ha]
  wire := by simp [ha]
  clock := rfl
  t0 := rfl
  attempts := rfl
  pollCnt := rfl
  outcome := rfl
  shadow := rfl
  rxbuf := rfl
  rxStore := rfl
  inputs := rfl
  writes := rfl
  waits := rfl
  timing := rfl
  lapses := rfl
  resetIn := rfl
  resetsAfter := rfl

/-- A query that has come to its first poll (R153 to R155). -/
theorem Asked.of_asked (p : PortCmd) {s : State} (ha : (writeAnswer s).ok = true) :
    Asked s (asked p s) p (frameOf p.id p.code p.args) where
  latched := { accept_latched p s with }
  phase := rfl
  dir := rfl
  resValid := rfl
  result := ⟨rfl, rfl, rfl, rfl, rfl, rfl⟩
  txbuf := rfl
  trace := by rw [asked_trace, ha]; rfl
  wire := by simp [asked, requested, ha]
  clock := Nat.le_add_right _ _
  t0 := rfl
  attempts := rfl
  pollCnt := rfl
  outcome := rfl
  shadow := rfl
  rxbuf := rfl
  rxStore := rfl
  inputs := rfl
  writes := rfl
  waits := rfl
  timing := rfl
  lapses := rfl
  resetIn := rfl
  resetsAfter := rfl

/-- A query that has been answered at its first poll (R157, R158). -/
theorem Asked.answered {s t : State} {c : PortCmd} {request : List Byte} (h : Asked s t c request) (reply : Reply)
    (bytes : List Byte) (rest : List Input) :
    Answered s (endWithReply reply (polled bytes { t with inputs := rest })) c request (s.rxStore ++ bytes) rest :=
  { h with
    latched := { h.latched with }
    trace := by simp [h.trace, h.rxStore]
    pollCnt := by simp [h.pollCnt]
    rxbuf := rfl
    rxStore := rfl
    inputs := rfl }

section
variable {c : Cmd} {r : ReadSpec} {p : PortCmd} {s : State} (hk : specOf c = .read r) (hcode : p.code = c.code)
  (hnp : p.args.np = c.requestNp) (hs : Ready s) (hid : p.id ≠ 255)
include hk hcode hnp hs hid

/-- A query whose first `write` fails ends there (R151). -/
theorem present_read_failed (ha : (writeAnswer s).ok = false) : present (some (specOf c)) p s =
    raise .ioFailure (transmit (startAttempt (startQuery (framed p s)))) := by
  rcases present_read hk hcode hnp hs with ⟨h, -⟩ | ⟨-, -, e⟩ | ⟨-, hok, -⟩
  · exact absurd h hid
  · exact e
  · exact absurd (ha.symm.trans hok) (by decide)

/-- A query whose request is sent runs on from its first poll. -/
theorem present_read_asked (ha : (writeAnswer s).ok = true) : ∃ n,
    present (some (specOf c)) p s = runCommand (some (.read r)) (n + 1) (asked p s) := by
  obtain ⟨m, hm⟩ := enoughTransitions_ge s.timing
  rcases present_read hk hcode hnp hs with ⟨h, -⟩ | ⟨-, hf, -⟩ | ⟨-, -, n, hn, e⟩
  · exact absurd h hid
  · exact absurd (ha.symm.trans hf) (by decide)
  · obtain rfl : n = m + 1 := by omega
    exact ⟨m, hk ▸ e⟩

/-- When the state does not say what arrives, the query rests before its first poll (log 1). -/
theorem present_read_rests (ha : (writeAnswer s).ok = true) (hno : NoArrival s) :
    present (some (specOf c)) p s = asked p s := by
  obtain ⟨n, e⟩ := present_read_asked hk hcode hnp hs hid ha
  rw [e, runCommand_rest ((atRest_poll (s := asked p s) rfl).mpr hno)]

/-- When a reply has arrived, the query ends with it (R158). -/
theorem present_read_answered (ha : (writeAnswer s).ok = true) (hn : 1 ≤ s.timing.nPoll) {bytes : List Byte}
    {rest : List Input} {id : Byte} {args : Args} (hi : s.inputs = .arrive bytes :: rest)
    (hb : s.rxStore ++ bytes = frameOf id p.code args) (hargs : args.np = r.replyNp) :
    present (some (specOf c)) p s =
      endWithReply ⟨id, p.code, args⟩ (polled bytes { asked p s with inputs := rest }) := by
  obtain ⟨n, e⟩ := present_read_asked hk hcode hnp hs hid ha
  have hspec : specAt p.code = some (.read r) := by rw [hcode, specAt_code, hk]
  have hrest : atRest (asked p s) = false :=
    Bool.eq_false_iff.mpr (mt (atRest_poll (s := asked p s) rfl).mp fun hno => hno bytes rest hi)
  rw [e, runCommand_succ hrest, tick_none (s := asked p s) hs.noReset, transition_poll (s := asked p s) rfl,
    pollNext_of_arrive (s := asked p s) hi,
    pollWith_accepted (s := { asked p s with inputs := rest }) hspec hn hb hargs, runCommand_rest (atRest_idle rfl)]
  rfl

end

/-! ## How a query goes on -/

/-- The results of a query of `code`, the last one by the last call of `calls` (R158, R225). -/
inductive QueryResult (r : ReadSpec) (code : Byte) (calls : List Event) : Status → Prop
  | writeFailed : QueryResult r code calls .ioFailure
  | timedOut : QueryResult r code calls .timeout
  | corrupted : QueryResult r code calls .corrupt
  | answered (id : Byte) (args : Args) (count : args.np = r.replyNp)
      (last : calls.getLast? = some (.readAvailable (frameOf id code args))) : QueryResult r code calls .ok

theorem QueryResult.status {r : ReadSpec} {code : Byte} {calls : List Event} {e : Status}
    (h : QueryResult r code calls e) : e = .ok ∨ e = .ioFailure ∨ e = .timeout ∨ e = .corrupt := by
  cases h <;> simp

theorem QueryResult.append {r : ReadSpec} {code : Byte} {calls : List Event} {e : Status}
    (h : QueryResult r code calls e) (before : List Event) : QueryResult r code (before ++ calls) e := by
  cases h with
  | writeFailed => exact .writeFailed
  | timedOut => exact .timedOut
  | corrupted => exact .corrupted
  | answered id args count last => exact .answered id args count (by simp [List.getLast?_append, last])

/-- How a query has gone on from `s` to `t` (R225): the command, its request and the shadow file are as before, every
`write` is of that request and there is one per attempt, and a result is one of a query. -/
structure QueryGoesOn (r : ReadSpec) (s t : State) (calls : List Event) : Prop where
  xCmd   : t.xCmd = s.xCmd
  txbuf  : t.txbuf = s.txbuf
  shadow : t.shadow = s.shadow
  trace  : t.trace = s.trace ++ calls
  writes : ∃ n, writesOf calls = List.replicate n s.txbuf ∧ t.attempts = s.attempts + n
  result : t.resValid = true → t.phase = .idle ∧ QueryResult r s.xCmd calls t.resStatus

theorem QueryGoesOn.refl (r : ReadSpec) {s : State} (hv : s.resValid = false) : QueryGoesOn r s s [] :=
  ⟨rfl, rfl, rfl, (List.append_nil _).symm, ⟨0, rfl, rfl⟩, by simp [hv]⟩

theorem QueryGoesOn.trans {r : ReadSpec} {s t u : State} {l m : List Event} (hst : QueryGoesOn r s t l)
    (htu : QueryGoesOn r t u m) : QueryGoesOn r s u (l ++ m) := by
  obtain ⟨a, hl, ha⟩ := hst.writes
  obtain ⟨b, hm, hb⟩ := htu.writes
  refine ⟨htu.xCmd.trans hst.xCmd, htu.txbuf.trans hst.txbuf, htu.shadow.trans hst.shadow,
    by rw [htu.trace, hst.trace, List.append_assoc], ⟨a + b, ?_, by rw [hb, ha, Nat.add_assoc]⟩, fun hv => ?_⟩
  · rw [writesOf_append, hl, hm, hst.txbuf, List.replicate_append_replicate]
  · obtain ⟨hp, hr⟩ := htu.result hv
    rw [hst.xCmd] at hr
    exact ⟨hp, hr.append l⟩

theorem AttemptOutcome.queryResult (o : AttemptOutcome) (r : ReadSpec) (code : Byte) (calls : List Event) :
    QueryResult r code calls o.status := by
  cases o with
  | timeout => exact .timedOut
  | corrupt => exact .corrupted

theorem txPhase_goesOn (r : ReadSpec) {s : State} (hv : s.resValid = false) :
    QueryGoesOn r s (txPhase (some (.read r)) s) [.setWriteMode, .write s.txbuf (writeAnswer s).ok] := by
  have htrace := transmit_trace (startAttempt s)
  rcases txPhase_read r s with ⟨-, e⟩ | ⟨-, e⟩ <;> rw [e]
  · exact ⟨rfl, rfl, rfl, htrace, ⟨1, rfl, rfl⟩, by simp [hv]⟩
  · exact ⟨rfl, rfl, rfl, htrace, ⟨1, rfl, rfl⟩, fun _ => ⟨rfl, .writeFailed⟩⟩

theorem settlePhase_goesOn (r : ReadSpec) {s : State} (hv : s.resValid = false) :
    QueryGoesOn r s (settlePhase s) [.wait s.timing.tSettle, .setReadMode] :=
  ⟨rfl, rfl, rfl, by simp, ⟨0, rfl, rfl⟩, by simp [hv]⟩

theorem endAttempt_goesOn (r : ReadSpec) {s : State} (hv : s.resValid = false) :
    QueryGoesOn r s (endAttempt s) [.now (clockAnswer s)] := by
  rcases endAttempt_cases s with ⟨-, e⟩ | ⟨-, e⟩ <;> rw [e]
  · exact ⟨rfl, rfl, rfl, rfl, ⟨0, rfl, rfl⟩, fun _ => ⟨rfl, s.outcome.queryResult r _ _⟩⟩
  · exact ⟨rfl, rfl, rfl, rfl, ⟨0, rfl, rfl⟩, by simp [hv]⟩

theorem pollWith_goesOn (r : ReadSpec) (bytes : List Byte) {s : State} (hv : s.resValid = false) :
    ∃ calls, QueryGoesOn r s (pollWith (some (.read r)) bytes s) calls := by
  have hreceived : QueryGoesOn r s (receive bytes s) [] := { QueryGoesOn.refl r hv with }
  have hwaited : QueryGoesOn r s (waitFor s.timing.tPoll (polled bytes s))
      [.readAvailable (s.rxStore ++ bytes), .wait s.timing.tPoll] :=
    ⟨rfl, rfl, rfl, by simp, ⟨0, rfl, rfl⟩, by simp [hv]⟩
  have hcorrupt : QueryGoesOn r s (corruptPolled bytes s) [.readAvailable (s.rxStore ++ bytes)] :=
    ⟨rfl, rfl, rfl, rfl, ⟨0, rfl, rfl⟩, by simp [corruptPolled, hv]⟩
  rcases pollWith_cases (some (.read r)) bytes s with
    ⟨-, e⟩ | ⟨-, -, e⟩ | ⟨-, -, e⟩ | ⟨-, reply, ha, e⟩ | ⟨-, -, -, -, e⟩ | ⟨-, -, -, -, e⟩ <;> rw [e]
  · exact ⟨_, hreceived.trans (endAttempt_goesOn r hv)⟩
  · exact ⟨_, hwaited⟩
  · exact ⟨_, hwaited.trans (endAttempt_goesOn r hv)⟩
  · obtain ⟨-, -, hnp, hb⟩ := acceptedReply_iff.mp ha
    exact ⟨[.readAvailable (s.rxStore ++ bytes)], rfl, rfl, rfl, rfl, ⟨0, rfl, rfl⟩,
      fun _ => ⟨rfl, .answered reply.id reply.args (Option.some.inj hnp).symm (by rw [hb]; rfl)⟩⟩
  · exact ⟨_, hcorrupt.trans (endAttempt_goesOn r hv)⟩
  · exact ⟨_, { hcorrupt with result := fun _ => ⟨rfl, .corrupted⟩ }⟩

/-- Every transition of a query past its check goes on with it, or ends it. -/
theorem transition_goesOn (r : ReadSpec) {s : State} (hv : s.resValid = false) (hc : s.phase ≠ .check) :
    ∃ calls, QueryGoesOn r s (transition (some (.read r)) s) calls := by
  cases hp : s.phase with
  | idle => rw [transition_idle hp]; exact ⟨_, .refl r hv⟩
  | check => exact absurd hp hc
  | tx => rw [transition_tx hp]; exact ⟨_, txPhase_goesOn r hv⟩
  | settle => rw [transition_settle hp]; exact ⟨_, settlePhase_goesOn r hv⟩
  | poll =>
    rw [transition_poll hp]
    have hmet : QueryGoesOn r s (dropArrival s) [] := by
      refine ⟨?_, ?_, ?_, ?_, ⟨0, rfl, ?_⟩, ?_⟩ <;> simp [hv]
    obtain ⟨calls, h⟩ := pollWith_goesOn r (arrival s) (s := dropArrival s) (by simpa)
    exact ⟨_, hmet.trans h⟩

/-- So does a run. -/
theorem runCommand_goesOn (r : ReadSpec) {s : State} {t0 : Nat} {frame : List Byte} (hu : UnderWay t0 frame s)
    (hv : s.resValid = false) (n : Nat) : ∃ calls, QueryGoesOn r s (runCommand (some (.read r)) n s) calls := by
  refine (runCommand_induct (P := fun t => UnderWay t0 frame t ∧ ∃ calls, QueryGoesOn r s t calls) ?_
    ⟨hu, _, .refl r hv⟩ n).2
  rintro t ⟨ht, calls, hgo⟩ hrest
  have hvt : t.resValid = false := by
    by_contra hne
    rw [atRest_idle (hgo.result (by simpa using hne)).1] at hrest
    cases hrest
  obtain ⟨later, h⟩ := transition_goesOn r hvt ht.checked
  rw [← tick_none ht.noReset] at h
  exact ⟨tick_underWay _ ht, _, hgo.trans h⟩

/-- A read command that is not refused, from the start of its query: its first call is the transmission (R153, R154). -/
theorem present_read_goesOn {c : Cmd} {r : ReadSpec} {p : PortCmd} {s : State} (hk : specOf c = .read r)
    (hcode : p.code = c.code) (hnp : p.args.np = c.requestNp) (hs : Ready s) (hid : p.id ≠ 255) :
    ∃ later, QueryGoesOn r (startQuery (framed p s)) (present (some (specOf c)) p s)
      (.setWriteMode :: .write (frameOf p.id p.code p.args) (writeAnswer s).ok :: later) := by
  have hsent := txPhase_goesOn r (s := startQuery (framed p s)) rfl
  rcases txPhase_read r (startQuery (framed p s)) with ⟨ha, e⟩ | ⟨ha, e⟩ <;> rw [e] at hsent
  · obtain ⟨n, e⟩ := present_read_asked hk hcode hnp hs hid ha
    have hasked : UnderWay (clockAnswer s) (frameOf p.id p.code p.args) (asked p s) :=
      ⟨by simp [asked], rfl, rfl, hs.noReset⟩
    obtain ⟨later, h⟩ := runCommand_goesOn r hasked rfl (n + 1)
    rw [e]
    exact ⟨_, hsent.trans ((settlePhase_goesOn r (s := requested p s) rfl).trans h)⟩
  · rw [present_read_failed hk hcode hnp hs hid ha]
    exact ⟨_, hsent⟩

/-! ## The rules of the read commands -/

/-- The rule of a read command (R211) follows from its own part. -/
theorem readRule {i : Instr} {r : ReadSpec} {replyNp : BitVec 2} {typed : Word → Word → Typed}
    (hq : i.isReply = false) (hk : specOf i.fields.cmd = .read r) (hn : r.replyNp = replyNp)
    (ht : ∀ p0 p1, r.typed p0 p1 = typed p0 p1) :
    ReadRule i i.portCmd (frameOf i.portCmd.id i.portCmd.code i.portCmd.args) replyNp typed := by
  intro s hs
  subst hn
  obtain ⟨-, hnp, -⟩ := Instr.request_fields hq
  refine ⟨fun hid => ⟨_, exec_request hq s, present_refuses rfl hnp hs (.inl hid)⟩,
    fun hid ha => ⟨_, exec_request hq s, ?_⟩, fun hid ha hno => ⟨_, exec_request hq s, ?_⟩,
    fun hid ha hpoll bytes rest id args hi hb hargs => ⟨_, exec_request hq s, ?_⟩, _, exec_request hq s, ?_⟩
  · rw [present_read_failed hk rfl hnp hs hid ha]
    exact AskFailed.of_raise i.portCmd ha
  · rw [present_read_rests hk rfl hnp hs hid ha hno]
    exact Asked.of_asked i.portCmd ha
  · rw [present_read_answered hk rfl hnp hs hid ha hpoll hi hb hargs, ← ht]
    exact ⟨endWithReply_holdsReply _ _, (Asked.of_asked i.portCmd ha).answered _ bytes rest,
      typedResult_endWithReply (by simp [Instr.portCmd, hk]) rfl hargs⟩
  · by_cases hid : i.portCmd.id = 255
    · have href := present_refuses (c := i.fields.cmd) rfl hnp hs (.inl hid)
      exact ⟨href.shadow, fun _ => by simp [href.resStatus, hid]⟩
    · obtain ⟨later, h⟩ := present_read_goesOn hk rfl hnp hs hid
      refine ⟨h.shadow, fun hv => ?_⟩
      rcases (h.result hv).2.status with e | e | e | e <;> simp [e]

/-- Settles O28: both results are the pair of the unsigned readings. -/
theorem motionReadRules : Obligations.MotionReadRules := fun _ _ _ _ =>
  ⟨readRule rfl rfl rfl fun _ _ => rfl, readRule rfl rfl rfl fun _ _ => rfl,
    replyRule rfl rfl rfl rfl, replyRule rfl rfl rfl rfl⟩

/-- Settles O29: the result is the signed reading of the pattern. -/
theorem offsetReadRules : Obligations.OffsetReadRules := by
  intro id offset chk
  refine ⟨readRule rfl rfl rfl fun p0 _ => ?_, replyRule rfl rfl rfl ?_⟩
  · exact congrArg Typed.signed (s16_eq_toInt p0)
  · exact congrArg Typed.signed (s16_eq_toInt offset)

/-- Settles O30: the limits are unsigned readings, without a check. -/
theorem limitReadRules : Obligations.LimitReadRules := fun _ _ _ _ _ =>
  ⟨readRule rfl rfl rfl fun _ _ => rfl, readRule rfl rfl rfl fun _ _ => rfl, readRule rfl rfl rfl fun _ _ => rfl,
    replyRule rfl rfl rfl rfl, replyRule rfl rfl rfl rfl, replyRule rfl rfl rfl rfl⟩

/-- Settles O31: the results are unsigned readings, without a check. -/
theorem telemetryReadRules : Obligations.TelemetryReadRules := fun _ _ _ =>
  ⟨readRule rfl rfl rfl fun _ _ => rfl, readRule rfl rfl rfl fun _ _ => rfl, readRule rfl rfl rfl fun _ _ => rfl,
    replyRule rfl rfl rfl rfl, replyRule rfl rfl rfl rfl, replyRule rfl rfl rfl rfl⟩

/-- Settles O32: of the four, the speed is read as signed and the load as a truth value. -/
theorem modeReadRules : Obligations.ModeReadRules := by
  intro id mode speed v chk
  refine ⟨readRule rfl rfl rfl fun p0 p1 => ?_, readRule rfl rfl rfl fun p0 _ => ?_,
    readRule rfl rfl rfl fun _ _ => rfl, readRule rfl rfl rfl fun _ _ => rfl,
    replyRule rfl rfl rfl ?_, replyRule rfl rfl rfl ?_, replyRule rfl rfl rfl rfl, replyRule rfl rfl rfl rfl⟩
  · exact congrArg (Typed.unsignedSigned p0.toNat) (s16_eq_toInt p1)
  · exact congrArg Typed.truth (loaded_eq p0)
  · exact congrArg (Typed.unsignedSigned mode.toNat) (s16_eq_toInt speed)
  · exact congrArg Typed.truth (loaded_eq v)

/-! ## What every read command keeps and calls -/

/-- A read command on the port with parameters is no request row. -/
theorem decodeCommand_read_args {c : PortCmd} {k : Cmd} (hk : Cmd.ofCode c.code = some k) (hkind : k.kind = .read)
    (hnp : c.args.np ≠ 0) : decodeCommand c = none := by
  rcases decodeCommand_cases c with ⟨i, k', -, hk', -, -, -, hcount⟩ | ⟨hd, -⟩
  · obtain rfl := Option.some.inj (hk.symm.trans hk')
    exact absurd (hcount.trans (Cmd.requestNp_of_read hkind)) hnp
  · exact hd

/-- Settles O33: a query goes on from its start with one `write` per attempt, and a refusal makes no call. -/
theorem readCommandLaws : Obligations.ReadCommandLaws := by
  refine fun s hs => ⟨fun i hq hkind => ?_, fun c k hk hkind hnp => ?_⟩
  · obtain ⟨r, hk⟩ := specOf_read hkind
    obtain ⟨-, hnp, hframe⟩ := Instr.request_fields hq
    rw [show encode i = frameOf i.portCmd.id i.portCmd.code i.portCmd.args from hframe]
    by_cases hid : i.fields.id = 255
    · have href := present_refuses (c := i.fields.cmd) (p := i.portCmd) rfl hnp hs (.inl hid)
      exact ⟨_, [], exec_request hq s, href.shadow, by rw [href.trace, List.append_nil], fun _ => rfl,
        fun hne => absurd hid hne, fun _ hok => by simp [href.resStatus] at hok⟩
    · obtain ⟨later, h⟩ := present_read_goesOn (p := i.portCmd) hk rfl hnp hs hid
      obtain ⟨n, hwrites, hattempts⟩ := h.writes
      refine ⟨_, .now (clockAnswer s) :: .setWriteMode ::
          .write (frameOf i.portCmd.id i.portCmd.code i.portCmd.args) (writeAnswer s).ok :: later,
        exec_request hq s, h.shadow, h.trace.trans (List.append_assoc ..), fun he => absurd he hid,
        fun _ => ⟨⟨later, rfl⟩, fun f hf => ?_, ?_⟩, fun hv hok => ?_⟩
      · exact List.eq_of_mem_replicate (hwrites ▸ hf)
      · refine (congrArg List.length hwrites).trans ?_
        rw [List.length_replicate, hattempts]
        exact (Nat.zero_add n).symm
      · have hresult := (h.result hv).2.append [.now (clockAnswer s)]
        rw [hok] at hresult
        cases hresult with
        | answered id args count last => exact ⟨id, args, by rw [hk, count]; rfl, last⟩
  · obtain ⟨t, e, href⟩ := step_present_refuses hs (decodeCommand_read_args hk hkind hnp)
    exact ⟨t, e, href.trace, href.resStatus, href.shadow⟩

end Sys2Proof.Machine
end

section
/-! SUPPORT. Proofs of the statements of `60_exceptions.md`: what taking an error writes, the codes and the status, the
results a request can end with, and where a macro stops. -/

namespace Sys2Proof.Machine

/-! ## Errors and codes -/

/-- Settles O18: of the state, `raise` writes the result registers, the phase and the count of free values. -/
theorem errorRecordsOnlyItsCode : Obligations.ErrorRecordsOnlyItsCode :=
  fun _ _ => ⟨_, _, _, _, _, _, rfl⟩

/-- `BUSY` is 1 exactly when the engine is not idle (R24). -/
theorem ofBool_busy (s : State) : BitVec.ofBool s.busy = if s.phase = .idle then 0 else 1 := by
  cases hp : s.phase <;> rw [State.busy, hp] <;> rfl

/-- Settles O21: the codes by their tables, the status from its two truth values. -/
theorem statusCodes : Obligations.StatusCodes := by
  refine ⟨rfl, rfl, rfl, rfl, rfl, rfl, rfl, rfl, rfl, rfl, rfl, fun s => ?_⟩
  rw [readStatus, ofBool_busy]
  cases s.resValid <;> rfl

/-! ## The results of a request -/

/-- A request that passes the checks of phase `CHECK` ends with `Ok` or an error of the bus, if it has ended. -/
theorem present_checked_result {c : Cmd} {p : PortCmd} {s : State} (hcode : p.code = c.code)
    (hnp : p.args.np = c.requestNp) (hs : Ready s) (hid : p.id ≠ 255)
    (hr : (specOf c).rangeOk (accept p s).xP0 (accept p s).xP1 = true)
    (hv : (present (some (specOf c)) p s).resValid = true) :
    (present (some (specOf c)) p s).resStatus ∈ [.ok, .ioFailure, .timeout, .corrupt] := by
  cases hk : specOf c with
  | write w =>
    rw [hk] at hr
    rw [← hk]
    cases ha : (writeAnswer s).ok with
    | true => simp [(present_write_ok hk hcode hnp hs hid hr ha).1.resStatus]
    | false => simp [(present_write_failed hk hcode hnp hs hid hr ha).1.resStatus]
  | read r =>
    obtain ⟨later, h⟩ := present_read_goesOn hk hcode hnp hs hid
    rw [← hk]
    simpa using (h.result hv).2.status

/-- No request ends with `InvalidParameterCount`: its count is its code's (R242). -/
theorem present_request_ne_invalidParameterCount {i : Instr} (hq : i.isReply = false) {s : State} (hs : Ready s)
    (hv : (present (some (specOf i.fields.cmd)) i.portCmd s).resValid = true) :
    (present (some (specOf i.fields.cmd)) i.portCmd s).resStatus ≠ .invalidParameterCount := by
  obtain ⟨-, hnp, -⟩ := Instr.request_fields hq
  intro e
  by_cases h : i.portCmd.id = 255 ∨
      (specOf i.fields.cmd).rangeOk (accept i.portCmd s).xP0 (accept i.portCmd s).xP1 = false
  · cases e.symm.trans (present_refuses rfl hnp hs h).resStatus
  · rw [not_or, Bool.not_eq_false] at h
    have := present_checked_result rfl hnp hs h.1 h.2 hv
    simp [e] at this

/-- Settles O19: ID 255 and each failed range check are refusals by the rule of the command, and a read command has no
range check. -/
theorem outOfRangeCauses : Obligations.OutOfRangeCauses := by
  refine fun s hs => ⟨fun i hq hid => ?_, fun id pos dur h => ?_, fun id offset h => ?_, fun id low high h => ?_,
    fun id low high h => ?_, fun id limit h => ?_, fun id load h => ?_, fun i hq hkind hid => ?_⟩
  · obtain ⟨-, hnp, -⟩ := Instr.request_fields hq
    exact ⟨_, exec_request hq s, present_refuses rfl hnp hs (.inl hid)⟩
  · obtain ⟨hmove, hstage⟩ := moveWriteRules id pos dur
    exact ⟨(hmove s hs).1 (.inr (by omega)), (hstage s hs).1 (.inr (by omega))⟩
  · exact (offsetAdjustRule id offset s hs).1 (.inr (by omega))
  · exact ((limitWriteRules id low high 0).1 s hs).1 (.inr h)
  · exact ((limitWriteRules id low high 0).2.1 s hs).1 (.inr h)
  · exact ((limitWriteRules id 0 0 limit).2.2 s hs).1 (.inr (by omega))
  · exact ((modeWriteRules id 0 0 load).2.1 s hs).1 (.inr (by omega))
  · obtain ⟨-, hnp, -⟩ := Instr.request_fields hq
    obtain ⟨r, hk⟩ := specOf_read hkind
    refine ⟨_, exec_request hq s, fun hv e => ?_⟩
    have := present_checked_result (p := i.portCmd) rfl hnp hs hid (by rw [hk]; rfl) hv
    simp [e] at this

/-- Settles O20: `ENCODE` has one error and its cause is the command's on the port; the count of a request is its
code's. -/
theorem invalidCountCauses : Obligations.InvalidCountCauses := by
  refine ⟨fun id code np p0 p1 e h => ?_, fun id code np p0 p1 h => ?_, fun c s hs h => ?_,
    fun i s hq hs => ⟨_, exec_request hq s, present_request_ne_invalidParameterCount hq hs⟩⟩
  · rcases encodeFrame_cases id code np p0 p1 with ⟨he, -⟩ | ⟨_, _, -, -, -, -, -, he⟩
    · cases h.symm.trans he; rfl
    · cases h.symm.trans he
  · rcases encodeFrame_cases id code np p0 p1 with ⟨he, -⟩ | ⟨c, _, hc, -, hnp, -⟩
    · exact he
    · exact absurd hnp (h c hc)
  · exact step_present_refuses hs ((commandPortNamesRequests.2.2 c).mpr h)

/-! ## Where a macro stops -/

/-- The command whose call has led to a state has ended `Ok` (R253). -/
def EndedOk (t : State) : Prop := t.resValid = true ∧ t.resStatus = .ok

/-- A run of a macro that stops at a command that does not end `Ok`: those before it are called, each to `Ok`. -/
def StopsAtFailure (cmds : List PortCmd) (s t : State) : Prop :=
  ∃ (done : List PortCmd) (failed : PortCmd) (skipped : List PortCmd) (u : State),
    cmds = done ++ failed :: skipped ∧ RunsOk done s u ∧ callCommand failed u = .next t ∧ ¬EndedOk t

theorem runMacro_cons_failed {c : PortCmd} {rest : List PortCmd} {s u : State} (h : callCommand c s = .next u)
    (hu : ¬EndedOk u) : runMacro (c :: rest) s = .next u := by
  simp only [runMacro, h, Bool.and_eq_true, beq_iff_eq]
  exact if_neg hu

theorem runMacro_nil_iff {s t : State} : runMacro [] s = .next t ↔ s = t := by simp [runMacro]

theorem runMacro_cons_iff {c : PortCmd} {rest : List PortCmd} {s t : State} :
    runMacro (c :: rest) s = .next t ↔
      ∃ u, callCommand c s = .next u ∧ (EndedOk u ∧ runMacro rest u = .next t ∨ ¬EndedOk u ∧ u = t) := by
  cases h : callCommand c s with
  | next u =>
    by_cases hu : EndedOk u
    · simp [runMacro_cons_ok h hu.1 hu.2, hu]
    · simp [runMacro_cons_failed h hu, hu]
  | fault r | refused r => simp [runMacro, h]

theorem runsOk_nil_iff {s t : State} : RunsOk [] s t ↔ s = t :=
  ⟨fun h => by cases h; rfl, fun h => h ▸ .nil s⟩

theorem runsOk_cons_iff {c : PortCmd} {rest : List PortCmd} {s t : State} :
    RunsOk (c :: rest) s t ↔ ∃ u, callCommand c s = .next u ∧ EndedOk u ∧ RunsOk rest u t := by
  constructor
  · rintro (_ | ⟨first, valid, ok, more⟩)
    exact ⟨_, first, ⟨valid, ok⟩, more⟩
  · rintro ⟨u, first, ⟨valid, ok⟩, more⟩
    exact .cons first valid ok more

theorem not_stopsAtFailure_nil {s t : State} : ¬StopsAtFailure [] s t := by
  rintro ⟨done, failed, skipped, u, h, -⟩
  cases done <;> cases h

theorem stopsAtFailure_cons_iff {c : PortCmd} {rest : List PortCmd} {s t : State} :
    StopsAtFailure (c :: rest) s t ↔
      ∃ u, callCommand c s = .next u ∧ (EndedOk u ∧ StopsAtFailure rest u t ∨ ¬EndedOk u ∧ u = t) := by
  constructor
  · rintro ⟨_ | ⟨d, done⟩, failed, skipped, u, h, hrun, hcall, hfail⟩ <;> cases h
    · cases hrun
      exact ⟨t, hcall, .inr ⟨hfail, rfl⟩⟩
    · obtain ⟨v, hfirst, hv, hmore⟩ := runsOk_cons_iff.mp hrun
      exact ⟨v, hfirst, .inl ⟨hv, done, failed, skipped, u, rfl, hmore, hcall, hfail⟩⟩
  · rintro ⟨v, hfirst, ⟨hv, done, failed, skipped, u, rfl, hmore, hcall, hfail⟩ | ⟨hfail, rfl⟩⟩
    · exact ⟨c :: done, failed, skipped, u, rfl, runsOk_cons_iff.mpr ⟨v, hfirst, hv, hmore⟩, hcall, hfail⟩
    · exact ⟨[], c, rest, s, rfl, .nil s, hfirst, hfail⟩

/-- The two ends of a run of a macro, by its first call, which goes on with the rest or ends the run. -/
theorem runMacro_iff (cmds : List PortCmd) (s t : State) :
    runMacro cmds s = .next t ↔ RunsOk cmds s t ∨ StopsAtFailure cmds s t := by
  induction cmds generalizing s with
  | nil => simp only [runMacro_nil_iff, runsOk_nil_iff, not_stopsAtFailure_nil, or_false]
  | cons c rest ih =>
    simp only [runMacro_cons_iff, runsOk_cons_iff, stopsAtFailure_cons_iff, ih]
    simp only [← exists_or, ← and_or_left, ← or_assoc]

/-- Settles O54, by induction on the list of commands. -/
theorem macroStopsAtFirstFailure : Obligations.MacroStopsAtFirstFailure := runMacro_iff

end Sys2Proof.Machine
end

section
/-! SUPPORT. Proofs of the statements of `70_reset_and_hazards.md`: the reset input, the wait of an idle engine, the
received echo of a request, and a macro whose second transmission fails. -/

namespace Sys2Proof.Machine

/-! ## Reset and waiting -/

/-- What a reset puts on the line is some first bytes of the frame (R282, U18). -/
theorem exists_cutShort_eq_take (s : State) : ∃ n, cutShort s = s.txbuf.take n := by
  unfold cutShort
  split
  · exact ⟨_, rfl⟩
  · exact ⟨0, rfl⟩

/-- Outside phase `TX` a reset puts nothing on the line (R282). -/
theorem cutShort_of_ne_tx {s : State} (h : s.phase ≠ .tx) : cutShort s = [] := if_neg h

/-- Settles O12: the step is `applyReset`, which writes the values of `State.reset` and adds `cutShort` to the line. -/
theorem resetInputResets : Obligations.ResetInputResets := by
  intro s h
  obtain ⟨n, hn⟩ := exists_cutShort_eq_take s
  refine ⟨_, step_reset h, rfl, rfl, rfl, rfl, rfl, fun _ => rfl, rfl, rfl, rfl, rfl, rfl, rfl, rfl, rfl, rfl,
    fun hp => ?_, n, ?_⟩
  · rw [applyReset_wire, cutShort_of_ne_tx hp, List.append_nil, applyReset_writes, if_neg hp]
    exact ⟨rfl, rfl⟩
  · rw [applyReset_wire, hn]

/-- Waiting with no reset coming changes nothing: there is no countdown to run. -/
theorem waitIdle_of_noReset {s : State} (h : s.resetIn = none) : waitIdle s = s := by
  rw [waitIdle, h, Option.map_none, ← h]

/-- Settles O17: the step is a wait with no countdown. -/
theorem idleEngineWaits : Obligations.IdleEngineWaits := by
  intro s hs hi
  rw [step_nothing hs.idle (by simp [hs.noReset]) hi, waitIdle_of_noReset hs.noReset]

/-! ## The echo of a request -/

/-- The frame of a read command is no reply to one: it carries no parameter, and a reply at least one (R158, R296). -/
theorem Checked.txbuf_ne_reply {s : State} {r : ReadSpec} (h : Checked s (.read r)) {id : Byte} {args : Args}
    (hframe : s.txbuf = frameOf id s.xCmd args) : r.replyNp ≠ args.np := by
  obtain ⟨c, -, -, hr⟩ := specAt_some h.known
  have hlen : 6 + 2 * args.np.toNat = 6 := by rw [← frameOf_length id s.xCmd, ← hframe, h.txbuf_length]
  have hnp : args.np = 0 := BitVec.eq_of_toNat_eq (show args.np.toNat = 0 by omega)
  rw [hnp]
  exact replyNp_ne_zero hr.symm

/-- Settles O36: the echo is bytes that are not accepted (O35), because it is no reply to the command in progress. -/
theorem echoIsRejected : Obligations.EchoIsRejected := by
  intro s rest hinv hp hr hn hstore hi hcr
  obtain ⟨r, hc⟩ := hinv.pollChecked hp
  have hbytes : s.rxStore ++ s.txbuf = s.txbuf := by rw [hstore, List.nil_append]
  have hne : s.txbuf ≠ [] := List.ne_nil_of_length_pos (by rw [hc.txbuf_length]; decide)
  have hno : ∀ k id args, specAt s.xCmd = some k → s.rxStore ++ s.txbuf = frameOf id s.xCmd args →
      replyNpOf (some k) ≠ some args.np := by
    intro k id args hk hframe
    cases hk.symm.trans hc.known
    exact fun h => hc.txbuf_ne_reply (hbytes.symm.trans hframe) (Option.some.inj h)
  obtain ⟨t, hstep, -, -, -, hend, -⟩ := rejectedBytesEndAttempt s s.txbuf rest hp hr hn hi (by rwa [hbytes]) hno
  exact ⟨t, hstep, (hend hcr).1⟩

/-! ## A macro with a failing write -/

/-- A write command that passes its checks and whose `write` succeeds makes its calls, and the macro goes on (R253). -/
theorem runMacro_cons_sent {c : Cmd} {w : WriteSpec} {p : PortCmd} {s : State} {a : WriteAnswer}
    {later : List WriteAnswer} (h : Sendable c w p) (hs : Ready s) (hw : s.writes = a :: later) (ha : a.ok = true) :
    ∃ t, (∀ rest, runMacro (p :: rest) s = runMacro rest t) ∧ Ready t ∧ t.writes = later ∧
      t.trace = s.trace ++ sendEvents p := by
  have hans : (writeAnswer s).ok = true := by simp [writeAnswer, hw, ha]
  obtain ⟨t, hcall, ht⟩ := callCommand_transmitted h hs
  rw [hans, if_pos rfl] at ht
  exact ⟨t, fun _ => runMacro_cons_ok hcall ht.resValid ht.resStatus, ⟨ht.phase, ht.kept.resetIn.trans hs.noReset⟩,
    by rw [ht.writes, hw, List.tail_cons], ht.trace⟩

/-- A write command that passes its checks and whose `write` fails ends the macro with `IoFailure` (R151, R293). -/
theorem runMacro_cons_ioFailure {c : Cmd} {w : WriteSpec} {p : PortCmd} {s : State} {a : WriteAnswer}
    {later : List WriteAnswer} (h : Sendable c w p) (hs : Ready s) (hw : s.writes = a :: later) (ha : a.ok = false) :
    ∃ t, (∀ rest, runMacro (p :: rest) s = .next t) ∧ t.resStatus = .ioFailure ∧
      t.trace = s.trace ++ [.setWriteMode, .write (frameOf p.id p.code p.args) false] := by
  have hans : (writeAnswer s).ok = false := by simp [writeAnswer, hw, ha]
  obtain ⟨t, hcall, ht⟩ := callCommand_transmitted h hs
  rw [hans, if_neg Bool.false_ne_true] at ht
  have hfailed : ¬EndedOk t := fun hok => by simp [EndedOk, ht.resStatus] at hok
  exact ⟨t, fun _ => runMacro_cons_failed hcall hfailed, ht.resStatus, ht.trace⟩

/-- Settles O53: the first stage command is sent, and the second ends the macro. -/
theorem failedStageStopsMacro : Obligations.FailedStageStopsMacro := by
  intro st leg s k a dur a1 a2 later hleg hst hs hk ha hdur hw h1 h2
  have hid : ∀ joint ≤ 3, jointId leg joint ≠ 255 := fun joint => jointId_ne_255 hleg
  have hfirst := sendable_stageCmd (hid 1 (by decide)) hs hdur
  have hsecond := sendable_stageCmd (hid 2 (by decide)) hk hdur
  obtain ⟨u, hsent, hu, hlater, hutrace⟩ := runMacro_cons_sent hfirst hst hw h1
  obtain ⟨t, hstop, hstatus, htrace⟩ := runMacro_cons_ioFailure hsecond hu hlater h2
  exact ⟨t, (hsent _).trans (hstop _), hstatus, by rw [htrace, hutrace, List.append_assoc]; rfl⟩

end Sys2Proof.Machine
end

section
/-! SUPPORT. The decoder on the frames of a command (`30_encoding.md` R107): the request row of the frame's parameter
count, and where the command has none the reply row of that count; and from this that it inverts the encoder. -/

namespace Sys2Proof.Machine

/-- The reply row of a command's parameters (R210); a reply carries at least one. -/
def replyRow (c : Cmd) (id : Byte) (args : Args) (chk : Byte) : Option Instr :=
  match args with
  | .zero => none
  | .one p0 => reply1 c id p0 chk
  | .two p0 p1 => reply2 c id p0 p1 chk

/-- A frame of a command, under any checksum byte, is read as the command on the port with its fields (R110), and where
there is no such command as the reply row. -/
theorem decode_frameWith (c : Cmd) (id : Byte) (args : Args) (chk : Byte) :
    decode (frameWith id c.code args chk) =
      orNoRow (decodeCommand ⟨id, c.code, args⟩ <|> replyRow c id args chk) := by
  cases args <;> simp [frameWith, frameBody, Args.bytes, Args.np, decode, decodeCommand, replyRow]

/-- A reply row is the reply row of its fields. -/
theorem replyRow_fields {i : Instr} {chk : Byte} (h : i.fields.chk = some chk) :
    replyRow i.fields.cmd i.fields.id i.fields.args chk = some i := by
  cases i <;> cases h <;> rfl

/-- No command on the port has the fields of a reply row: a read command is asked without parameters (R102, R210). -/
theorem decodeCommand_portCmd_reply {i : Instr} {chk : Byte} (h : i.fields.chk = some chk) :
    decodeCommand i.portCmd = none := by
  cases i <;> cases h <;> rfl

/-- Settles O7: an instruction's bytes are a frame of its fields; a request row is the command on the port with those
fields, and a reply row, whose count no request of its command has, is found by its count. -/
theorem decodeOfEncode : Obligations.DecodeOfEncode := by
  intro i
  rw [encode_eq, decode_frameWith]
  change orNoRow (decodeCommand i.portCmd <|> _) = _
  cases h : i.fields.chk with
  | none =>
    rw [decodeCommand_portCmd (by simp [Instr.isReply, h])]
    rfl
  | some chk =>
    rw [decodeCommand_portCmd_reply h, Option.getD_some, replyRow_fields h]
    rfl

end Sys2Proof.Machine
end
